-- ==== Sys2Proof/Word.lean ====
section
/-! DEFINITION. The widths the Z8000 works with (00_scope R6, R10): byte, word, long word, quadruple. -/

namespace Sys2Proof

/-- 8 bits, the smallest addressable unit (20_memory R70). -/
abbrev Byte := BitVec 8

/-- 16 bits: a word register, an instruction word, an offset (00_scope R6). -/
abbrev Word := BitVec 16

/-- 32 bits: a register pair (10_state R20). -/
abbrev Long := BitVec 32

/-- 64 bits: a register quadruple, which exists in registers only (20_memory R72). -/
abbrev Quad := BitVec 64

end Sys2Proof
end

