-- ==== Sys2Proof/Syntax.lean ====
section
/-! DEFINITION. The instructions as syntax: one constructor per mnemonic of spec/opcode_table.json, split
where the rows of one mnemonic differ in kind (load and store, static and dynamic bit, ...). Rows of one
mnemonic that differ only in the addressing mode share a constructor: the operand says which row it is. -/

namespace Sys2Proof

/-- A 4-bit register field (10_state R21); the operand width says which register it names. -/
abbrev RegField := BitVec 4

/-- An address in an instruction (20_memory R80, R83): one word nonsegmented, the short-offset or the
long-offset form segmented. -/
inductive Addr where
  /-- Nonsegmented: the 16-bit address. -/
  | ns (off : Word)
  /-- SS: segment number and 8-bit offset in one word. -/
  | short (seg : BitVec 7) (off : BitVec 8)
  /-- SL: segment number in the first word, offset in the second. -/
  | long (seg : BitVec 7) (off : Word)
  deriving DecidableEq, Repr

/-- The memory modes of format F1 (30_encoding R124): IR, DA, X. -/
inductive Mem where
  | ir (r : RegField)
  | da (a : Addr)
  | x (a : Addr) (i : RegField)
  deriving DecidableEq, Repr

/-- IR, DA, X and the base modes BA, BX of the loads (20_memory R84). -/
inductive MemB where
  | mem (m : Mem)
  | ba (b : RegField) (disp : Word)
  | bx (b : RegField) (i : RegField)
  deriving DecidableEq, Repr

/-- A register or a memory operand. -/
inductive RM where
  | r (f : RegField)
  | mem (m : Mem)
  deriving DecidableEq, Repr

/-- A source operand in R, IM, IR, DA or X, `n` bits wide. -/
inductive Src (n : Nat) where
  | r (f : RegField)
  | im (v : BitVec n)
  | mem (m : Mem)
  deriving DecidableEq, Repr

/-- The source of LD, LDB, LDL into a register: all seven modes (40_load_exchange R203). -/
inductive LdSrc (n : Nat) where
  | r (f : RegField)
  | im (v : BitVec n)
  | mem (m : MemB)
  deriving DecidableEq, Repr

/-- The source of LDA (40_load_exchange R206): an address, in DA, X, BA or BX. -/
inductive EaSrc where
  | da (a : Addr)
  | x (a : Addr) (i : RegField)
  | ba (b : RegField) (disp : Word)
  | bx (b : RegField) (i : RegField)
  deriving DecidableEq, Repr

/-- The port operand of IN, INB, OUT, OUTB (47_io R461): in the instruction (DA) or in a word register (IR). -/
inductive Port where
  | da (p : Word)
  | ir (r : RegField)
  deriving DecidableEq, Repr

/-- The control registers LDCTL names (10_state R50). -/
inductive CtlReg where
  | fcw
  | refresh
  | psapseg
  | psapoff
  | nspseg
  | nspoff
  deriving DecidableEq, Repr

/-- What follows the first word of an extended opcode that matches no template: its second word, and in the DA and X
forms the address (30_encoding R121, R127, R135). -/
structure EpaTail where
  word : Word
  addr : Option Addr
  deriving DecidableEq, Repr

/-- The instructions. -/
inductive Instr where
  -- Load and Exchange (40_load_exchange)
  | clrb (d : RM)
  | clr (d : RM)
  | exb (d : RegField) (src : RM)
  | ex (d : RegField) (src : RM)
  | ldbLoad (d : RegField) (src : LdSrc 8)
  | ldbStore (dst : MemB) (f : RegField)
  | ldbStoreImm (dst : Mem) (v : BitVec 8)
  | ldbShort (d : RegField) (v : BitVec 8)
  | ldLoad (d : RegField) (src : LdSrc 16)
  | ldStore (dst : MemB) (f : RegField)
  | ldStoreImm (dst : Mem) (v : BitVec 16)
  | ldlLoad (d : RegField) (src : LdSrc 32)
  | ldlStore (dst : MemB) (f : RegField)
  | lda (d : RegField) (src : EaSrc)
  | ldar (d : RegField) (disp : Word)
  | ldk (d : RegField) (v : BitVec 4)
  | ldmLoad (d : RegField) (src : Mem) (num : BitVec 4)
  | ldmStore (dst : Mem) (f : RegField) (num : BitVec 4)
  | ldrbLoad (d : RegField) (disp : Word)
  | ldrbStore (disp : Word) (f : RegField)
  | ldrLoad (d : RegField) (disp : Word)
  | ldrStore (disp : Word) (f : RegField)
  | ldrlLoad (d : RegField) (disp : Word)
  | ldrlStore (disp : Word) (f : RegField)
  | pop (dst : RM) (sp : RegField)
  | popl (dst : RM) (sp : RegField)
  | push (sp : RegField) (src : Src 16)
  | pushl (sp : RegField) (src : RM)
  -- Arithmetic (41_arithmetic)
  | adcb (d f : RegField)
  | adc (d f : RegField)
  | addb (d : RegField) (src : Src 8)
  | add (d : RegField) (src : Src 16)
  | addl (d : RegField) (src : Src 32)
  | sbcb (d f : RegField)
  | sbc (d f : RegField)
  | subb (d : RegField) (src : Src 8)
  | sub (d : RegField) (src : Src 16)
  | subl (d : RegField) (src : Src 32)
  | cpb (d : RegField) (src : Src 8)
  | cp (d : RegField) (src : Src 16)
  | cpl (d : RegField) (src : Src 32)
  | cpbMemImm (dst : Mem) (v : BitVec 8)
  | cpMemImm (dst : Mem) (v : BitVec 16)
  | incb (d : RM) (num : BitVec 4)
  | inc (d : RM) (num : BitVec 4)
  | decb (d : RM) (num : BitVec 4)
  | dec (d : RM) (num : BitVec 4)
  | negb (d : RM)
  | neg (d : RM)
  | dab (d : RegField)
  | extsb (d : RegField)
  | exts (d : RegField)
  | extsl (d : RegField)
  | mult (d : RegField) (src : Src 16)
  | multl (d : RegField) (src : Src 32)
  | div (d : RegField) (src : Src 16)
  | divl (d : RegField) (src : Src 32)
  -- Logical (42_logical)
  | andb (d : RegField) (src : Src 8)
  | and (d : RegField) (src : Src 16)
  | orb (d : RegField) (src : Src 8)
  | or (d : RegField) (src : Src 16)
  | xorb (d : RegField) (src : Src 8)
  | xor (d : RegField) (src : Src 16)
  | comb (d : RM)
  | com (d : RM)
  | testb (d : RM)
  | test (d : RM)
  | testl (d : RM)
  -- Program control (43_program_control)
  | call (dst : Mem)
  | calr (disp : BitVec 12)
  | djnz (r : RegField) (disp : BitVec 7)
  | dbjnz (r : RegField) (disp : BitVec 7)
  | iret
  | jp (cc : BitVec 4) (dst : Mem)
  | jr (cc : BitVec 4) (disp : BitVec 8)
  | ret (cc : BitVec 4)
  | sc (v : BitVec 8)
  -- Bit manipulation (44_bit_manipulation)
  | bitb (d : RM) (num : BitVec 4)
  | bit (d : RM) (num : BitVec 4)
  | bitbDyn (d f : RegField)
  | bitDyn (d f : RegField)
  | resb (d : RM) (num : BitVec 4)
  | res (d : RM) (num : BitVec 4)
  | resbDyn (d f : RegField)
  | resDyn (d f : RegField)
  | setb (d : RM) (num : BitVec 4)
  | set (d : RM) (num : BitVec 4)
  | setbDyn (d f : RegField)
  | setDyn (d f : RegField)
  | tccb (cc : BitVec 4) (d : RegField)
  | tcc (cc : BitVec 4) (d : RegField)
  | tsetb (d : RM)
  | tset (d : RM)
  -- Rotate and shift (45_rotate_shift); `two` is the rotate count field, `count` the signed count word
  | rlb (d : RegField) (two : Bool)
  | rl (d : RegField) (two : Bool)
  | rlcb (d : RegField) (two : Bool)
  | rlc (d : RegField) (two : Bool)
  | rrb (d : RegField) (two : Bool)
  | rr (d : RegField) (two : Bool)
  | rrcb (d : RegField) (two : Bool)
  | rrc (d : RegField) (two : Bool)
  | rldb (link src : RegField)
  | rrdb (link src : RegField)
  | sdab (d f : RegField)
  | sda (d f : RegField)
  | sdal (d f : RegField)
  | sdlb (d f : RegField)
  | sdl (d f : RegField)
  | sdll (d f : RegField)
  | slab (d : RegField) (count : BitVec 8)
  | sla (d : RegField) (count : BitVec 16)
  | slal (d : RegField) (count : BitVec 16)
  | sllb (d : RegField) (count : BitVec 8)
  | sll (d : RegField) (count : BitVec 16)
  | slll (d : RegField) (count : BitVec 16)
  | srab (d : RegField) (count : BitVec 8)
  | sra (d : RegField) (count : BitVec 16)
  | sral (d : RegField) (count : BitVec 16)
  | srlb (d : RegField) (count : BitVec 8)
  | srl (d : RegField) (count : BitVec 16)
  | srll (d : RegField) (count : BitVec 16)
  -- Block transfer and string manipulation (46_block_string)
  | cpdb (f cnt d : RegField) (cc : BitVec 4)
  | cpd (f cnt d : RegField) (cc : BitVec 4)
  | cpdrb (f cnt d : RegField) (cc : BitVec 4)
  | cpdr (f cnt d : RegField) (cc : BitVec 4)
  | cpib (f cnt d : RegField) (cc : BitVec 4)
  | cpi (f cnt d : RegField) (cc : BitVec 4)
  | cpirb (f cnt d : RegField) (cc : BitVec 4)
  | cpir (f cnt d : RegField) (cc : BitVec 4)
  | cpsdb (f cnt d : RegField) (cc : BitVec 4)
  | cpsd (f cnt d : RegField) (cc : BitVec 4)
  | cpsdrb (f cnt d : RegField) (cc : BitVec 4)
  | cpsdr (f cnt d : RegField) (cc : BitVec 4)
  | cpsib (f cnt d : RegField) (cc : BitVec 4)
  | cpsi (f cnt d : RegField) (cc : BitVec 4)
  | cpsirb (f cnt d : RegField) (cc : BitVec 4)
  | cpsir (f cnt d : RegField) (cc : BitVec 4)
  | lddb (f cnt d : RegField)
  | ldd (f cnt d : RegField)
  | lddrb (f cnt d : RegField)
  | lddr (f cnt d : RegField)
  | ldib (f cnt d : RegField)
  | ldi (f cnt d : RegField)
  | ldirb (f cnt d : RegField)
  | ldir (f cnt d : RegField)
  | trdb (d cnt f : RegField)
  | trdrb (d cnt f : RegField)
  | trib (d cnt f : RegField)
  | trirb (d cnt f : RegField)
  | trtdb (d cnt f : RegField)
  | trtdrb (d cnt f : RegField)
  | trtib (d cnt f : RegField)
  | trtirb (d cnt f : RegField)
  -- Input/output (47_io)
  | inpb (d : RegField) (p : Port)
  | inp (d : RegField) (p : Port)
  | outb (p : Port) (f : RegField)
  | out (p : Port) (f : RegField)
  | sinb (d : RegField) (p : Word)
  | sin (d : RegField) (p : Word)
  | soutb (p : Word) (f : RegField)
  | sout (p : Word) (f : RegField)
  | indb (f cnt d : RegField)
  | ind (f cnt d : RegField)
  | indrb (f cnt d : RegField)
  | indr (f cnt d : RegField)
  | inib (f cnt d : RegField)
  | ini (f cnt d : RegField)
  | inirb (f cnt d : RegField)
  | inir (f cnt d : RegField)
  | outdb (f cnt d : RegField)
  | outd (f cnt d : RegField)
  | otdrb (f cnt d : RegField)
  | otdr (f cnt d : RegField)
  | outib (f cnt d : RegField)
  | outi (f cnt d : RegField)
  | otirb (f cnt d : RegField)
  | otir (f cnt d : RegField)
  | sindb (f cnt d : RegField)
  | sind (f cnt d : RegField)
  | sindrb (f cnt d : RegField)
  | sindr (f cnt d : RegField)
  | sinib (f cnt d : RegField)
  | sini (f cnt d : RegField)
  | sinirb (f cnt d : RegField)
  | sinir (f cnt d : RegField)
  | soutdb (f cnt d : RegField)
  | soutd (f cnt d : RegField)
  | sotdrb (f cnt d : RegField)
  | sotdr (f cnt d : RegField)
  | soutib (f cnt d : RegField)
  | souti (f cnt d : RegField)
  | sotirb (f cnt d : RegField)
  | sotir (f cnt d : RegField)
  -- CPU control (48_cpu_control)
  | comflg (mask : BitVec 4)
  | resflg (mask : BitVec 4)
  | setflg (mask : BitVec 4)
  | nop
  | di (vn : BitVec 2)
  | ei (vn : BitVec 2)
  | halt
  | ldctlRead (d : RegField) (c : CtlReg)
  | ldctlWrite (c : CtlReg) (f : RegField)
  | ldctlbRead (d : RegField)
  | ldctlbWrite (f : RegField)
  | ldps (src : Mem)
  | mbit
  | mreq (d : RegField)
  | mres
  | mset
  -- Extended instructions (49_extended); the u fields are the bits the CPU ignores (R551)
  | epaStm (dst : Mem) (u1 : BitVec 2) (u2 : BitVec 12) (num : BitVec 4)
  | epaLdm (src : Mem) (u1 : BitVec 2) (u2 : BitVec 12) (num : BitVec 4)
  | epaLdr (u1 : BitVec 3) (u2 : BitVec 2) (u3 : BitVec 4) (d : RegField) (u4 num : BitVec 4)
  | epaStr (u1 : BitVec 3) (u2 : BitVec 2) (u3 : BitVec 4) (f : RegField) (u4 num : BitVec 4)
  | epaLdf (u1 : BitVec 4) (u2 : BitVec 2) (u3 u4 : BitVec 4)
  | epaStf (u1 : BitVec 4) (u2 : BitVec 2) (u3 u4 : BitVec 4)
  | epaOp (u1 : BitVec 4) (u2 : BitVec 2) (w2 : Word)
  | epaOther (w1 : Word) (w2 : EpaTail)
  deriving DecidableEq, Repr

end Sys2Proof
end

