-- ==== Sys2Proof/WellFormed.lean ====
section
/-! DEFINITION. Which terms of `Instr` are instructions of the machine: the field values that the encoding
tables forbid (10_state R21, R24; 30_encoding R127, R150, the `constraints` of opcode_table.json) are
refused here, and nothing else is. `seg` says whether addresses have the segmented form (R121). Conditions
that depend on more than the encoding (register overlap, the variant, the privilege) are checked by the
meanings. -/

namespace Sys2Proof

/-- A pair field is even (10_state R21, U3). -/
def pairField (f : RegField) : Bool := f.getLsbD 0 == false

/-- A quadruple field is a multiple of 4 (10_state R21, U3). -/
def quadField (f : RegField) : Bool := f.getLsbD 0 == false && f.getLsbD 1 == false

/-- A field that names an address register: not 0 (10_state R24), and a pair in segmented mode (R79). -/
def addrField (seg : Bool) (f : RegField) : Bool := f != 0#4 && (!seg || pairField f)

/-- An index register is a word register other than R0 in both modes (20_memory R81, R84). -/
def indexField (f : RegField) : Bool := f != 0#4

/-- The address form belongs to the mode (20_memory R83). -/
def Addr.wf (seg : Bool) : Addr → Bool
  | .ns _ => !seg
  | .short _ _ => seg
  | .long _ _ => seg

def Mem.wf (seg : Bool) : Mem → Bool
  | .ir r => addrField seg r
  | .da a => a.wf seg
  | .x a i => a.wf seg && indexField i

/-- As `Mem.wf`, without the evenness of an address pair: an extended instruction with EPA = 0 traps
whatever its operand fields hold (49_extended R550), so its meaning checks the pair itself. -/
def Mem.wfEpa (seg : Bool) : Mem → Bool
  | .ir r => r != 0#4
  | .da a => a.wf seg
  | .x a i => a.wf seg && indexField i

def MemB.wf (seg : Bool) : MemB → Bool
  | .mem m => m.wf seg
  | .ba b _ => addrField seg b
  | .bx b i => addrField seg b && indexField i

/-- A byte or word destination: any register field, or a memory operand. -/
def RM.wf (seg : Bool) : RM → Bool
  | .r _ => true
  | .mem m => m.wf seg

/-- A long-word operand: a pair, or a memory operand. -/
def RM.wfPair (seg : Bool) : RM → Bool
  | .r f => pairField f
  | .mem m => m.wf seg

def Src.wf {n : Nat} (seg : Bool) : Src n → Bool
  | .r _ => true
  | .im _ => true
  | .mem m => m.wf seg

def Src.wfPair {n : Nat} (seg : Bool) : Src n → Bool
  | .r f => pairField f
  | .im _ => true
  | .mem m => m.wf seg

def LdSrc.wf {n : Nat} (seg : Bool) : LdSrc n → Bool
  | .r _ => true
  | .im _ => true
  | .mem m => m.wf seg

def LdSrc.wfPair {n : Nat} (seg : Bool) : LdSrc n → Bool
  | .r f => pairField f
  | .im _ => true
  | .mem m => m.wf seg

def EaSrc.wf (seg : Bool) : EaSrc → Bool
  | .da a => a.wf seg
  | .x a i => a.wf seg && indexField i
  | .ba b _ => addrField seg b
  | .bx b i => addrField seg b && indexField i

/-- An address destination of LDA, LDAR: a word register nonsegmented, a pair segmented (R206). -/
def addrDest (seg : Bool) (d : RegField) : Bool := !seg || pairField d

/-- The bit number of a byte instruction is below 8 (30_encoding R131). -/
def byteBit (n : BitVec 4) : Bool := n.getLsbD 3 == false

/-- A left-shift count word is nonnegative, a right-shift one negative (30_encoding R132). -/
def leftCount {n : Nat} (c : BitVec n) : Bool := c.msb == false
def rightCount {n : Nat} (c : BitVec n) : Bool := c.msb

/-- Whether a second word fits the flag templates `**** 0000 **** 0000` (49_extended R551). -/
def flagTemplate (w2 : Word) : Bool := w2.extractLsb' 8 4 == 0#4 && w2.extractLsb' 0 4 == 0#4

/-- Whether the words of an extended opcode match one of the seven templates (49_extended R551). -/
def epaMatches (w1 w2 : Word) : Bool :=
  let a := w1.extractLsb' 4 4
  let sel := w1.extractLsb' 2 2
  match w1.extractLsb' 8 8 with
  | 0x0F#8 => a != 0#4 && (sel == 3#2 || sel == 1#2)
  | 0x4F#8 => sel == 3#2 || sel == 1#2
  | 0x8F#8 => w1.getLsbD 7 == false && (sel == 0#2 || sel == 2#2)
  | 0x8E#8 => sel == 1#2 || ((sel == 0#2 || sel == 2#2) && flagTemplate w2)
  | _ => false

/-- The six upper bytes of the extended instructions (49_extended R550). -/
def epaUpper (w1 : Word) : Bool :=
  match w1.extractLsb' 8 8 with
  | 0x0E#8 | 0x0F#8 | 0x4E#8 | 0x4F#8 | 0x8E#8 | 0x8F#8 => true
  | _ => false

/-- Whether address words follow the second word of an extended opcode: DA and X, upper bytes 4E and 4F
(30_encoding R121, R135; 49_extended R551). -/
def epaAddressed (w1 : Word) : Bool := w1.extractLsb' 14 2 == 1#2

/-- The address of an extended opcode of no template stands there exactly in the DA and X forms, in the form of the
mode. -/
def epaAddrWf (seg : Bool) (w1 : Word) : Option Addr → Bool
  | none => !epaAddressed w1
  | some a => epaAddressed w1 && a.wf seg

/-- The port register of OUT and OUTB: any word register but R0 (47_io R463). IN and INB with R0 decode too; whether a
step runs them (R463) or refuses them (R150, R195) is the parameter `inPortZero` (`State.reservedPort`, log 18). -/
def Port.wfOut : Port → Bool
  | .da _ => true
  | .ir f => f != 0#4

/-- A block pointer pair: both fields name address registers (30_encoding R127, R141). -/
def blockPtrs (seg : Bool) (f d : RegField) : Bool := addrField seg f && addrField seg d

/-- Block input: a port register (a word register, not R0) and a memory pointer (30_encoding R138). -/
def blockIn (seg : Bool) (port d : RegField) : Bool := port != 0#4 && addrField seg d

/-- Block output: a memory pointer and a port register. -/
def blockOut (seg : Bool) (f port : RegField) : Bool := addrField seg f && port != 0#4

/-- The instruction's field values are ones the encoding admits. -/
def wellFormed (seg : Bool) : Instr → Bool
  | .clrb d => d.wf seg
  | .clr d => d.wf seg
  | .exb _ src => src.wf seg
  | .ex _ src => src.wf seg
  | .ldbLoad _ src => src.wf seg
  | .ldbStore dst _ => dst.wf seg
  | .ldbStoreImm dst _ => dst.wf seg
  | .ldbShort _ _ => true
  | .ldLoad _ src => src.wf seg
  | .ldStore dst _ => dst.wf seg
  | .ldStoreImm dst _ => dst.wf seg
  | .ldlLoad d src => pairField d && src.wfPair seg
  | .ldlStore dst f => dst.wf seg && pairField f
  | .lda d src => addrDest seg d && src.wf seg
  | .ldar d _ => addrDest seg d
  | .ldk _ _ => true
  | .ldmLoad _ src _ => src.wf seg
  | .ldmStore dst _ _ => dst.wf seg
  | .ldrbLoad _ _ => true
  | .ldrbStore _ _ => true
  | .ldrLoad _ _ => true
  | .ldrStore _ _ => true
  | .ldrlLoad d _ => pairField d
  | .ldrlStore _ f => pairField f
  | .pop dst sp => dst.wf seg && addrField seg sp
  | .popl dst sp => dst.wfPair seg && addrField seg sp
  | .push sp src => addrField seg sp && src.wf seg
  | .pushl sp src => addrField seg sp && src.wfPair seg
  | .adcb _ _ => true
  | .adc _ _ => true
  | .addb _ src => src.wf seg
  | .add _ src => src.wf seg
  | .addl d src => pairField d && src.wfPair seg
  | .sbcb _ _ => true
  | .sbc _ _ => true
  | .subb _ src => src.wf seg
  | .sub _ src => src.wf seg
  | .subl d src => pairField d && src.wfPair seg
  | .cpb _ src => src.wf seg
  | .cp _ src => src.wf seg
  | .cpl d src => pairField d && src.wfPair seg
  | .cpbMemImm dst _ => dst.wf seg
  | .cpMemImm dst _ => dst.wf seg
  | .incb d _ => d.wf seg
  | .inc d _ => d.wf seg
  | .decb d _ => d.wf seg
  | .dec d _ => d.wf seg
  | .negb d => d.wf seg
  | .neg d => d.wf seg
  | .dab _ => true
  | .extsb _ => true
  | .exts d => pairField d
  | .extsl d => quadField d
  | .mult d src => pairField d && src.wf seg
  | .multl d src => quadField d && src.wfPair seg
  | .div d src => pairField d && src.wf seg
  | .divl d src => quadField d && src.wfPair seg
  | .andb _ src => src.wf seg
  | .and _ src => src.wf seg
  | .orb _ src => src.wf seg
  | .or _ src => src.wf seg
  | .xorb _ src => src.wf seg
  | .xor _ src => src.wf seg
  | .comb d => d.wf seg
  | .com d => d.wf seg
  | .testb d => d.wf seg
  | .test d => d.wf seg
  | .testl d => d.wfPair seg
  | .call dst => dst.wf seg
  | .calr _ => true
  | .djnz _ _ => true
  | .dbjnz _ _ => true
  | .iret => true
  | .jp _ dst => dst.wf seg
  | .jr _ _ => true
  | .ret _ => true
  | .sc _ => true
  | .bitb d num => d.wf seg && byteBit num
  | .bit d _ => d.wf seg
  | .bitbDyn _ f => byteBit f
  | .bitDyn _ _ => true
  | .resb d num => d.wf seg && byteBit num
  | .res d _ => d.wf seg
  | .resbDyn _ f => byteBit f
  | .resDyn _ _ => true
  | .setb d num => d.wf seg && byteBit num
  | .set d _ => d.wf seg
  | .setbDyn _ f => byteBit f
  | .setDyn _ _ => true
  | .tccb _ _ => true
  | .tcc _ _ => true
  | .tsetb d => d.wf seg
  | .tset d => d.wf seg
  | .rlb _ _ => true
  | .rl _ _ => true
  | .rlcb _ _ => true
  | .rlc _ _ => true
  | .rrb _ _ => true
  | .rr _ _ => true
  | .rrcb _ _ => true
  | .rrc _ _ => true
  | .rldb _ _ => true
  | .rrdb _ _ => true
  | .sdab _ _ => true
  | .sda _ _ => true
  | .sdal d _ => pairField d
  | .sdlb _ _ => true
  | .sdl _ _ => true
  | .sdll d _ => pairField d
  | .slab _ c => leftCount c
  | .sla _ c => leftCount c
  | .slal d c => pairField d && leftCount c
  | .sllb _ c => leftCount c
  | .sll _ c => leftCount c
  | .slll d c => pairField d && leftCount c
  | .srab _ c => rightCount c
  | .sra _ c => rightCount c
  | .sral d c => pairField d && rightCount c
  | .srlb _ c => rightCount c
  | .srl _ c => rightCount c
  | .srll d c => pairField d && rightCount c
  | .cpdb f _ _ _ => addrField seg f
  | .cpd f _ _ _ => addrField seg f
  | .cpdrb f _ _ _ => addrField seg f
  | .cpdr f _ _ _ => addrField seg f
  | .cpib f _ _ _ => addrField seg f
  | .cpi f _ _ _ => addrField seg f
  | .cpirb f _ _ _ => addrField seg f
  | .cpir f _ _ _ => addrField seg f
  | .cpsdb f _ d _ => blockPtrs seg f d
  | .cpsd f _ d _ => blockPtrs seg f d
  | .cpsdrb f _ d _ => blockPtrs seg f d
  | .cpsdr f _ d _ => blockPtrs seg f d
  | .cpsib f _ d _ => blockPtrs seg f d
  | .cpsi f _ d _ => blockPtrs seg f d
  | .cpsirb f _ d _ => blockPtrs seg f d
  | .cpsir f _ d _ => blockPtrs seg f d
  | .lddb f _ d => blockPtrs seg f d
  | .ldd f _ d => blockPtrs seg f d
  | .lddrb f _ d => blockPtrs seg f d
  | .lddr f _ d => blockPtrs seg f d
  | .ldib f _ d => blockPtrs seg f d
  | .ldi f _ d => blockPtrs seg f d
  | .ldirb f _ d => blockPtrs seg f d
  | .ldir f _ d => blockPtrs seg f d
  | .trdb d _ f => blockPtrs seg f d
  | .trdrb d _ f => blockPtrs seg f d
  | .trib d _ f => blockPtrs seg f d
  | .trirb d _ f => blockPtrs seg f d
  | .trtdb d _ f => blockPtrs seg f d
  | .trtdrb d _ f => blockPtrs seg f d
  | .trtib d _ f => blockPtrs seg f d
  | .trtirb d _ f => blockPtrs seg f d
  | .inpb _ _ => true
  | .inp _ _ => true
  | .outb p _ => p.wfOut
  | .out p _ => p.wfOut
  | .sinb _ _ => true
  | .sin _ _ => true
  | .soutb _ _ => true
  | .sout _ _ => true
  | .indb f _ d => blockIn seg f d
  | .ind f _ d => blockIn seg f d
  | .indrb f _ d => blockIn seg f d
  | .indr f _ d => blockIn seg f d
  | .inib f _ d => blockIn seg f d
  | .ini f _ d => blockIn seg f d
  | .inirb f _ d => blockIn seg f d
  | .inir f _ d => blockIn seg f d
  | .outdb f _ d => blockOut seg f d
  | .outd f _ d => blockOut seg f d
  | .otdrb f _ d => blockOut seg f d
  | .otdr f _ d => blockOut seg f d
  | .outib f _ d => blockOut seg f d
  | .outi f _ d => blockOut seg f d
  | .otirb f _ d => blockOut seg f d
  | .otir f _ d => blockOut seg f d
  | .sindb f _ d => blockIn seg f d
  | .sind f _ d => blockIn seg f d
  | .sindrb f _ d => blockIn seg f d
  | .sindr f _ d => blockIn seg f d
  | .sinib f _ d => blockIn seg f d
  | .sini f _ d => blockIn seg f d
  | .sinirb f _ d => blockIn seg f d
  | .sinir f _ d => blockIn seg f d
  | .soutdb f _ d => blockOut seg f d
  | .soutd f _ d => blockOut seg f d
  | .sotdrb f _ d => blockOut seg f d
  | .sotdr f _ d => blockOut seg f d
  | .soutib f _ d => blockOut seg f d
  | .souti f _ d => blockOut seg f d
  | .sotirb f _ d => blockOut seg f d
  | .sotir f _ d => blockOut seg f d
  | .comflg _ => true
  | .resflg _ => true
  | .setflg _ => true
  | .nop => true
  | .di _ => true
  | .ei _ => true
  | .halt => true
  | .ldctlRead _ _ => true
  | .ldctlWrite _ _ => true
  | .ldctlbRead _ => true
  | .ldctlbWrite _ => true
  | .ldps src => src.wf seg
  | .mbit => true
  | .mreq _ => true
  | .mres => true
  | .mset => true
  | .epaStm m _ _ _ => m.wfEpa seg
  | .epaLdm m _ _ _ => m.wfEpa seg
  | .epaLdr _ _ _ _ _ _ => true
  | .epaStr _ _ _ _ _ _ => true
  | .epaLdf _ _ _ _ => true
  | .epaStf _ _ _ _ => true
  | .epaOp _ _ _ => true
  | .epaOther w1 w2 => epaUpper w1 && !epaMatches w1 w2.word && epaAddrWf seg w1 w2.addr

end Sys2Proof
end

