-- ==== Sys2Proof/Decode.lean ====
section
/-! DEFINITION. The decoder, total on any words and bytes, and the encoder (30_encoding). -/

namespace Sys2Proof

/-- Why a decoder refuses (30_encoding R150, D13). -/
inductive Reject where
  /-- The words end before the instruction does. -/
  | truncated
  /-- An upper byte that the Op Code Map marks RSVD (R135). -/
  | reservedUpperByte
  /-- A sub-opcode (field A or B) that Tables 1 to 7 mark RSVD or do not list (R136 to R142). -/
  | reservedSubOpcode
  /-- A second word whose fixed bits are not those listed (R127, R150). -/
  | reservedSecondWord
  /-- Field values that no form of the instruction admits (R150, U2, U3, U11). -/
  | illFormedOperands
  deriving DecidableEq, Repr

/-! ### Fields (R122) -/

/-- Bits 15:14. -/
def fMode (w : Word) : BitVec 2 := w.extractLsb' 14 2

/-- Bits 13:8. -/
def fOp (w : Word) : BitVec 6 := w.extractLsb' 8 6

/-- Field A, bits 7:4. -/
def fA (w : Word) : BitVec 4 := w.extractLsb' 4 4

/-- Field B, bits 3:0. -/
def fB (w : Word) : BitVec 4 := w.extractLsb' 0 4

/-- The fields put together again. -/
def mkWord (m : BitVec 2) (op : BitVec 6) (a b : BitVec 4) : Word := m ++ op ++ a ++ b

/-- Bits 15:12, 11:8, 7:4 and 3:0 of a second word. -/
def nib3 (w : Word) : BitVec 4 := w.extractLsb' 12 4
def nib2 (w : Word) : BitVec 4 := w.extractLsb' 8 4
def nib1 (w : Word) : BitVec 4 := w.extractLsb' 4 4
def nib0 (w : Word) : BitVec 4 := w.extractLsb' 0 4

def mkNibs (a b c d : BitVec 4) : Word := a ++ b ++ c ++ d

/-! ### Reading operands -/

/-- What a parser gives: a value and the words after it. -/
abbrev Parse (α : Type) := Except Reject (α × List Word)

def pMap {α β : Type} (f : α → β) : Parse α → Parse β
  | .ok (v, ws) => .ok (f v, ws)
  | .error e => .error e

def pBind {α β : Type} (p : Parse α) (f : α → List Word → Parse β) : Parse β :=
  match p with
  | .ok (v, ws) => f v ws
  | .error e => .error e

/-- One word. -/
def pWord : List Word → Parse Word
  | [] => .error .truncated
  | w :: ws => .ok (w, ws)

/-- A byte immediate: the low byte of a word that carries it twice (R130). -/
def pImm8 (ws : List Word) : Parse (BitVec 8) := pMap (fun w => w.extractLsb' 0 8) (pWord ws)

/-- A long immediate: high word first (R130). -/
def pImm32 : List Word → Parse (BitVec 32)
  | hi :: lo :: ws => .ok (hi ++ lo, ws)
  | _ => .error .truncated

/-- An address (20_memory R83): one word nonsegmented; segmented, bit 15 of the first word tells the
short form from the long one, whose low byte is ignored. -/
def pAddr (seg : Bool) : List Word → Parse Addr
  | [] => .error .truncated
  | w :: ws =>
    if seg then
      if w.getLsbD 15 then
        match ws with
        | [] => .error .truncated
        | o :: ws' => .ok (.long (w.extractLsb' 8 7) o, ws')
      else .ok (.short (w.extractLsb' 8 7) (w.extractLsb' 0 8), ws)
    else .ok (.ns w, ws)

/-- DA when the field is 0, X otherwise (R124, mode bits 01). -/
def pDaX (seg : Bool) (f : RegField) (ws : List Word) : Parse Mem :=
  pMap (fun a => if f = 0#4 then .da a else .x a f) (pAddr seg ws)

/-- A memory operand in IR, DA or X; IR with field 0 has no form here (R124, R150). -/
def pMem (seg : Bool) (m : BitVec 2) (f : RegField) (ws : List Word) : Parse Mem :=
  match m with
  | 0#2 => if f = 0#4 then .error .illFormedOperands else .ok (.ir f, ws)
  | 1#2 => pDaX seg f ws
  | _ => .error .reservedUpperByte

/-- A register or memory operand (R124 without IM). -/
def pRM (seg : Bool) (m : BitVec 2) (f : RegField) (ws : List Word) : Parse RM :=
  match m with
  | 2#2 => .ok (.r f, ws)
  | _ => pMap RM.mem (pMem seg m f ws)

/-- A source operand in all five modes of R124; `imm` reads the immediate. -/
def pSrc {n : Nat} (imm : List Word → Parse (BitVec n)) (seg : Bool) (m : BitVec 2) (f : RegField)
    (ws : List Word) : Parse (Src n) :=
  match m with
  | 2#2 => .ok (.r f, ws)
  | 0#2 => if f = 0#4 then pMap Src.im (imm ws) else .ok (.mem (.ir f), ws)
  | _ => pMap Src.mem (pMem seg m f ws)

/-- The same for the load instructions. -/
def pLdSrc {n : Nat} (imm : List Word → Parse (BitVec n)) (seg : Bool) (m : BitVec 2) (f : RegField)
    (ws : List Word) : Parse (LdSrc n) :=
  match m with
  | 2#2 => .ok (.r f, ws)
  | 0#2 => if f = 0#4 then pMap LdSrc.im (imm ws) else .ok (.mem (.mem (.ir f)), ws)
  | _ => pMap (fun x => LdSrc.mem (.mem x)) (pMem seg m f ws)

/-- The index register of a BX form: second word `0000 Rx 0000 0000` (R127, F9). -/
def pIndexWord (ws : List Word) : Parse RegField :=
  pBind (pWord ws) fun w rest =>
    if nib3 w = 0#4 ∧ nib1 w = 0#4 ∧ nib0 w = 0#4 then .ok (nib2 w, rest) else .error .reservedSecondWord

/-- Second word `0000 | x | y | z` (R127, F5). -/
def pNibs (ws : List Word) : Parse (BitVec 4 × BitVec 4 × BitVec 4) :=
  pBind (pWord ws) fun w rest =>
    if nib3 w = 0#4 then .ok ((nib2 w, nib1 w, nib0 w), rest) else .error .reservedSecondWord

/-- Second word `0000 | x | 0000 | y` (R127, F8). -/
def pLdmWord (ws : List Word) : Parse (BitVec 4 × BitVec 4) :=
  pBind (pNibs ws) fun v rest =>
    if v.2.1 = 0#4 then .ok ((v.1, v.2.2), rest) else .error .reservedSecondWord

/-! ### The instruction groups -/

/-- Only the mode bits 10 (a register form). -/
def onlyReg (m : BitVec 2) (p : Parse Instr) : Parse Instr :=
  if m = 2#2 then p else .error .reservedUpperByte

/-- Table 1 (R136), byte half: upper bytes 0C, 4C, 8C. -/
def decodeTable1b (seg : Bool) (m : BitVec 2) (a b : BitVec 4) (ws : List Word) : Parse Instr :=
  match b with
  | 0x0#4 => pMap .comb (pRM seg m a ws)
  | 0x1#4 =>
    if m = 2#2 then .ok (.ldctlbRead a, ws)
    else pBind (pMem seg m a ws) fun x r => pMap (Instr.cpbMemImm x) (pImm8 r)
  | 0x2#4 => pMap .negb (pRM seg m a ws)
  | 0x4#4 => pMap .testb (pRM seg m a ws)
  | 0x5#4 =>
    if m = 2#2 then .error .reservedSubOpcode
    else pBind (pMem seg m a ws) fun x r => pMap (Instr.ldbStoreImm x) (pImm8 r)
  | 0x6#4 => pMap .tsetb (pRM seg m a ws)
  | 0x8#4 => pMap .clrb (pRM seg m a ws)
  | 0x9#4 => if m = 2#2 then .ok (.ldctlbWrite a, ws) else .error .reservedSubOpcode
  | _ => .error .reservedSubOpcode

/-- Table 1 (R136), word half: upper bytes 0D, 4D, 8D. -/
def decodeTable1w (seg : Bool) (m : BitVec 2) (a b : BitVec 4) (ws : List Word) : Parse Instr :=
  match b with
  | 0x0#4 => pMap .com (pRM seg m a ws)
  | 0x1#4 =>
    if m = 2#2 then .ok (.setflg a, ws)
    else pBind (pMem seg m a ws) fun x r => pMap (Instr.cpMemImm x) (pWord r)
  | 0x2#4 => pMap .neg (pRM seg m a ws)
  | 0x3#4 => if m = 2#2 then .ok (.resflg a, ws) else .error .reservedSubOpcode
  | 0x4#4 => pMap .test (pRM seg m a ws)
  | 0x5#4 =>
    if m = 2#2 then .ok (.comflg a, ws)
    else pBind (pMem seg m a ws) fun x r => pMap (Instr.ldStoreImm x) (pWord r)
  | 0x6#4 => pMap .tset (pRM seg m a ws)
  | 0x7#4 => if m = 2#2 ∧ a = 0#4 then .ok (.nop, ws) else .error .reservedSubOpcode
  | 0x8#4 => pMap .clr (pRM seg m a ws)
  | 0x9#4 =>
    if m = 0#2 ∧ a ≠ 0#4 then pMap (fun v => .push a (.im v)) (pWord ws) else .error .reservedSubOpcode
  | _ => .error .reservedSubOpcode

/-- Table 2 (R137): upper bytes 1C, 5C, 9C. -/
def decodeTable2 (seg : Bool) (m : BitVec 2) (a b : BitVec 4) (ws : List Word) : Parse Instr :=
  match b with
  | 0x1#4 =>
    if m = 2#2 then .error .reservedSubOpcode
    else pBind (pLdmWord ws) fun v r => pMap (fun x => .ldmLoad v.1 x v.2) (pMem seg m a r)
  | 0x8#4 => pMap .testl (pRM seg m a ws)
  | 0x9#4 =>
    if m = 2#2 then .error .reservedSubOpcode
    else pBind (pLdmWord ws) fun v r => pMap (fun x => .ldmStore x v.1 v.2) (pMem seg m a r)
  | _ => .error .reservedSubOpcode

/-- A block form of Table 3: the low nibble of the second word selects single (1000) or repeat (0000). -/
def pBlock (single rep : RegField → RegField → RegField → Instr) (f : RegField) (ws : List Word) : Parse Instr :=
  pBind (pNibs ws) fun v rest =>
    match v.2.2 with
    | 0x8#4 => .ok (single f v.1 v.2.1, rest)
    | 0x0#4 => .ok (rep f v.1 v.2.1, rest)
    | _ => .error .reservedSecondWord

/-- A compare form of Table 6: the low nibble is the condition code. -/
def pCompare (mk : RegField → RegField → RegField → BitVec 4 → Instr) (f : RegField) (ws : List Word) : Parse Instr :=
  pBind (pNibs ws) fun v rest => .ok (mk f v.1 v.2.1 v.2.2, rest)

/-- A translate form of Table 5: the low nibble is fixed. -/
def pTranslate (mk : RegField → RegField → RegField → Instr) (low : BitVec 4) (d : RegField) (ws : List Word) :
    Parse Instr :=
  pBind (pNibs ws) fun v rest => if v.2.2 = low then .ok (mk d v.1 v.2.1, rest) else .error .reservedSecondWord

/-- A port number in the instruction (47_io R461). -/
def pPort (mk : Word → Instr) (ws : List Word) : Parse Instr := pMap mk (pWord ws)

/-- Table 3 (R138), bytes: upper byte 3A. -/
def decodeTable3b (a b : BitVec 4) (ws : List Word) : Parse Instr :=
  match b with
  | 0x0#4 => pBlock .inib .inirb a ws
  | 0x1#4 => pBlock .sinib .sinirb a ws
  | 0x2#4 => pBlock .outib .otirb a ws
  | 0x3#4 => pBlock .soutib .sotirb a ws
  | 0x4#4 => pPort (fun p => .inpb a (.da p)) ws
  | 0x5#4 => pPort (fun p => .sinb a p) ws
  | 0x6#4 => pPort (fun p => .outb (.da p) a) ws
  | 0x7#4 => pPort (fun p => .soutb p a) ws
  | 0x8#4 => pBlock .indb .indrb a ws
  | 0x9#4 => pBlock .sindb .sindrb a ws
  | 0xA#4 => pBlock .outdb .otdrb a ws
  | 0xB#4 => pBlock .soutdb .sotdrb a ws
  | _ => .error .reservedSubOpcode

/-- Table 3 (R138), words: upper byte 3B. -/
def decodeTable3w (a b : BitVec 4) (ws : List Word) : Parse Instr :=
  match b with
  | 0x0#4 => pBlock .ini .inir a ws
  | 0x1#4 => pBlock .sini .sinir a ws
  | 0x2#4 => pBlock .outi .otir a ws
  | 0x3#4 => pBlock .souti .sotir a ws
  | 0x4#4 => pPort (fun p => .inp a (.da p)) ws
  | 0x5#4 => pPort (fun p => .sin a p) ws
  | 0x6#4 => pPort (fun p => .out (.da p) a) ws
  | 0x7#4 => pPort (fun p => .sout p a) ws
  | 0x8#4 => pBlock .ind .indr a ws
  | 0x9#4 => pBlock .sind .sindr a ws
  | 0xA#4 => pBlock .outd .otdr a ws
  | 0xB#4 => pBlock .soutd .sotdr a ws
  | _ => .error .reservedSubOpcode

/-- A static byte shift: the sign of the low byte of the second word tells left from right (R132, R139);
its high byte is ignored. -/
def pShift8 (left right : RegField → BitVec 8 → Instr) (d : RegField) (ws : List Word) : Parse Instr :=
  pMap (fun c => if c.msb then right d c else left d c) (pImm8 ws)

/-- A static word or long shift. -/
def pShift16 (left right : RegField → BitVec 16 → Instr) (d : RegField) (ws : List Word) : Parse Instr :=
  pMap (fun c => if c.msb then right d c else left d c) (pWord ws)

/-- A dynamic shift: second word `0000 Rs 0000 0000` (R127, F6). -/
def pDynShift (mk : RegField → RegField → Instr) (d : RegField) (ws : List Word) : Parse Instr :=
  pMap (mk d) (pIndexWord ws)

/-- Table 4 (R139), bytes: upper byte B2. -/
def decodeTable4b (a b : BitVec 4) (ws : List Word) : Parse Instr :=
  match b with
  | 0x0#4 => .ok (.rlb a false, ws)
  | 0x1#4 => pShift8 .sllb .srlb a ws
  | 0x2#4 => .ok (.rlb a true, ws)
  | 0x3#4 => pDynShift .sdlb a ws
  | 0x4#4 => .ok (.rrb a false, ws)
  | 0x6#4 => .ok (.rrb a true, ws)
  | 0x8#4 => .ok (.rlcb a false, ws)
  | 0x9#4 => pShift8 .slab .srab a ws
  | 0xA#4 => .ok (.rlcb a true, ws)
  | 0xB#4 => pDynShift .sdab a ws
  | 0xC#4 => .ok (.rrcb a false, ws)
  | 0xE#4 => .ok (.rrcb a true, ws)
  | _ => .error .reservedSubOpcode

/-- Table 4 (R139), words and long words: upper byte B3. -/
def decodeTable4w (a b : BitVec 4) (ws : List Word) : Parse Instr :=
  match b with
  | 0x0#4 => .ok (.rl a false, ws)
  | 0x1#4 => pShift16 .sll .srl a ws
  | 0x2#4 => .ok (.rl a true, ws)
  | 0x3#4 => pDynShift .sdl a ws
  | 0x4#4 => .ok (.rr a false, ws)
  | 0x5#4 => pShift16 .slll .srll a ws
  | 0x6#4 => .ok (.rr a true, ws)
  | 0x7#4 => pDynShift .sdll a ws
  | 0x8#4 => .ok (.rlc a false, ws)
  | 0x9#4 => pShift16 .sla .sra a ws
  | 0xA#4 => .ok (.rlc a true, ws)
  | 0xB#4 => pDynShift .sda a ws
  | 0xC#4 => .ok (.rrc a false, ws)
  | 0xD#4 => pShift16 .slal .sral a ws
  | 0xE#4 => .ok (.rrc a true, ws)
  | _ => pDynShift .sdal a ws

/-- Table 5 (R140): upper byte B8. -/
def decodeTable5 (a b : BitVec 4) (ws : List Word) : Parse Instr :=
  match b with
  | 0x0#4 => pTranslate .trib 0x0#4 a ws
  | 0x2#4 => pTranslate .trtib 0x0#4 a ws
  | 0x4#4 => pTranslate .trirb 0x0#4 a ws
  | 0x6#4 => pTranslate .trtirb 0xE#4 a ws
  | 0x8#4 => pTranslate .trdb 0x0#4 a ws
  | 0xA#4 => pTranslate .trtdb 0x0#4 a ws
  | 0xC#4 => pTranslate .trdrb 0x0#4 a ws
  | 0xE#4 => pTranslate .trtdrb 0xE#4 a ws
  | _ => .error .reservedSubOpcode

/-- Table 6 (R141), bytes: upper byte BA. -/
def decodeTable6b (a b : BitVec 4) (ws : List Word) : Parse Instr :=
  match b with
  | 0x0#4 => pCompare .cpib a ws
  | 0x1#4 => pBlock .ldib .ldirb a ws
  | 0x2#4 => pCompare .cpsib a ws
  | 0x4#4 => pCompare .cpirb a ws
  | 0x6#4 => pCompare .cpsirb a ws
  | 0x8#4 => pCompare .cpdb a ws
  | 0x9#4 => pBlock .lddb .lddrb a ws
  | 0xA#4 => pCompare .cpsdb a ws
  | 0xC#4 => pCompare .cpdrb a ws
  | 0xE#4 => pCompare .cpsdrb a ws
  | _ => .error .reservedSubOpcode

/-- Table 6 (R141), words: upper byte BB. -/
def decodeTable6w (a b : BitVec 4) (ws : List Word) : Parse Instr :=
  match b with
  | 0x0#4 => pCompare .cpi a ws
  | 0x1#4 => pBlock .ldi .ldir a ws
  | 0x2#4 => pCompare .cpsi a ws
  | 0x4#4 => pCompare .cpir a ws
  | 0x6#4 => pCompare .cpsir a ws
  | 0x8#4 => pCompare .cpd a ws
  | 0x9#4 => pBlock .ldd .lddr a ws
  | 0xA#4 => pCompare .cpsd a ws
  | 0xC#4 => pCompare .cpdr a ws
  | 0xE#4 => pCompare .cpsdr a ws
  | _ => .error .reservedSubOpcode

/-- Table 7 (R142), upper byte 7B. -/
def decodeTable7 (a b : BitVec 4) (ws : List Word) : Parse Instr :=
  match b with
  | 0x0#4 => if a = 0#4 then .ok (.iret, ws) else .error .reservedSubOpcode
  | 0x8#4 => if a = 0#4 then .ok (.mset, ws) else .error .reservedSubOpcode
  | 0x9#4 => if a = 0#4 then .ok (.mres, ws) else .error .reservedSubOpcode
  | 0xA#4 => if a = 0#4 then .ok (.mbit, ws) else .error .reservedSubOpcode
  | 0xD#4 => .ok (.mreq a, ws)
  | _ => .error .reservedSubOpcode

/-- Table 7 (R142), upper byte 7D: LDCTL. -/
def decodeLdctl (a b : BitVec 4) (ws : List Word) : Parse Instr :=
  match b with
  | 0x2#4 => .ok (.ldctlRead a .fcw, ws)
  | 0x3#4 => .ok (.ldctlRead a .refresh, ws)
  | 0x4#4 => .ok (.ldctlRead a .psapseg, ws)
  | 0x5#4 => .ok (.ldctlRead a .psapoff, ws)
  | 0x6#4 => .ok (.ldctlRead a .nspseg, ws)
  | 0x7#4 => .ok (.ldctlRead a .nspoff, ws)
  | 0xA#4 => .ok (.ldctlWrite .fcw a, ws)
  | 0xB#4 => .ok (.ldctlWrite .refresh a, ws)
  | 0xC#4 => .ok (.ldctlWrite .psapseg a, ws)
  | 0xD#4 => .ok (.ldctlWrite .psapoff a, ws)
  | 0xE#4 => .ok (.ldctlWrite .nspseg a, ws)
  | 0xF#4 => .ok (.ldctlWrite .nspoff a, ws)
  | _ => .error .reservedSubOpcode

/-- An extended opcode of no template: two words, and the address words of DA and X (R121, R127, R135). -/
def decodeEpaOther (seg : Bool) (w1 w2 : Word) (ws : List Word) : Parse Instr :=
  if epaAddressed w1 then pMap (fun a => .epaOther w1 ⟨w2, some a⟩) (pAddr seg ws)
  else .ok (.epaOther w1 ⟨w2, none⟩, ws)

/-- The extended instructions (49_extended R551): the template that matches, or `epaOther`. -/
def decodeEpa (seg : Bool) (w1 : Word) (ws : List Word) : Parse Instr :=
  pBind (pWord ws) fun w2 rest =>
    let u := w1.extractLsb' 0 2
    if epaMatches w1 w2 then
      if (fOp w1).getLsbD 0 then
        if fMode w1 = 2#2 then
          if w1.getLsbD 3 then
            .ok (.epaStr (w1.extractLsb' 4 3) u (nib3 w2) (nib2 w2) (nib1 w2) (nib0 w2), rest)
          else .ok (.epaLdr (w1.extractLsb' 4 3) u (nib3 w2) (nib2 w2) (nib1 w2) (nib0 w2), rest)
        else pMap (fun x => if w1.getLsbD 3 then .epaStm x u (w2.extractLsb' 4 12) (nib0 w2)
                            else .epaLdm x u (w2.extractLsb' 4 12) (nib0 w2)) (pMem seg (fMode w1) (fA w1) rest)
      else
        if w1.getLsbD 2 then .ok (.epaOp (fA w1) u w2, rest)
        else if w1.getLsbD 3 then .ok (.epaStf (fA w1) u (nib3 w2) (nib1 w2), rest)
        else .ok (.epaLdf (fA w1) u (nib3 w2) (nib1 w2), rest)
    else decodeEpaOther seg w1 w2 rest

/-- A static bit instruction, or with mode 00 and field A = 0 its dynamic form (R133). -/
def pBit (stat : RM → BitVec 4 → Instr) (dyn : RegField → RegField → Instr) (seg : Bool) (m : BitVec 2)
    (a b : BitVec 4) (ws : List Word) : Parse Instr :=
  if m = 0#2 ∧ a = 0#4 then pMap (fun d => dyn d b) (pIndexWord ws)
  else pMap (fun x => stat x b) (pRM seg m a ws)

/-- The BA and BX loads and stores, with RA in place of BA when the field is 0 (R135, upper bytes 30-37
and 70-77). -/
def pBase (mk : MemB → Instr) (ra : Word → Instr) (m : BitVec 2) (a : BitVec 4) (ws : List Word) : Parse Instr :=
  match m with
  | 0#2 => pMap (fun d => if a = 0#4 then ra d else mk (.ba a d)) (pWord ws)
  | 1#2 => pMap (fun x => mk (.bx a x)) (pIndexWord ws)
  | _ => .error .reservedUpperByte

/-- A store of format F1 (R122): register into memory. -/
def pStore (mk : MemB → RegField → Instr) (seg : Bool) (m : BitVec 2) (a b : BitVec 4) (ws : List Word) : Parse Instr :=
  pMap (fun x => mk (.mem x) b) (pMem seg m a ws)

/-- Format F1 and the individual upper bytes (R122, R124, R135): all of mode bits 00, 01 and 10. -/
def decodeF1 (seg : Bool) (w : Word) (m : BitVec 2) (op : BitVec 6) (a b : BitVec 4) (ws : List Word) : Parse Instr :=
  match op with
  | 0x00#6 => pMap (.addb b) (pSrc pImm8 seg m a ws)
  | 0x01#6 => pMap (.add b) (pSrc pWord seg m a ws)
  | 0x02#6 => pMap (.subb b) (pSrc pImm8 seg m a ws)
  | 0x03#6 => pMap (.sub b) (pSrc pWord seg m a ws)
  | 0x04#6 => pMap (.orb b) (pSrc pImm8 seg m a ws)
  | 0x05#6 => pMap (.or b) (pSrc pWord seg m a ws)
  | 0x06#6 => pMap (.andb b) (pSrc pImm8 seg m a ws)
  | 0x07#6 => pMap (.and b) (pSrc pWord seg m a ws)
  | 0x08#6 => pMap (.xorb b) (pSrc pImm8 seg m a ws)
  | 0x09#6 => pMap (.xor b) (pSrc pWord seg m a ws)
  | 0x0A#6 => pMap (.cpb b) (pSrc pImm8 seg m a ws)
  | 0x0B#6 => pMap (.cp b) (pSrc pWord seg m a ws)
  | 0x0C#6 => decodeTable1b seg m a b ws
  | 0x0D#6 => decodeTable1w seg m a b ws
  | 0x0E#6 => decodeEpa seg w ws
  | 0x0F#6 => decodeEpa seg w ws
  | 0x10#6 => pMap (.cpl b) (pSrc pImm32 seg m a ws)
  | 0x11#6 =>
    match m with
    | 0#2 => .ok (.pushl a (.mem (.ir b)), ws)
    | 1#2 => pMap (fun x => .pushl a (.mem x)) (pDaX seg b ws)
    | _ => .ok (.pushl a (.r b), ws)
  | 0x12#6 => pMap (.subl b) (pSrc pImm32 seg m a ws)
  | 0x13#6 =>
    match m with
    | 0#2 => .ok (.push a (.mem (.ir b)), ws)
    | 1#2 => pMap (fun x => .push a (.mem x)) (pDaX seg b ws)
    | _ => .ok (.push a (.r b), ws)
  | 0x14#6 => pMap (.ldlLoad b) (pLdSrc pImm32 seg m a ws)
  | 0x15#6 =>
    match m with
    | 0#2 => .ok (.popl (.mem (.ir b)) a, ws)
    | 1#2 => pMap (fun x => .popl (.mem x) a) (pDaX seg b ws)
    | _ => .ok (.popl (.r b) a, ws)
  | 0x16#6 => pMap (.addl b) (pSrc pImm32 seg m a ws)
  | 0x17#6 =>
    match m with
    | 0#2 => .ok (.pop (.mem (.ir b)) a, ws)
    | 1#2 => pMap (fun x => .pop (.mem x) a) (pDaX seg b ws)
    | _ => .ok (.pop (.r b) a, ws)
  | 0x18#6 => pMap (.multl b) (pSrc pImm32 seg m a ws)
  | 0x19#6 => pMap (.mult b) (pSrc pWord seg m a ws)
  | 0x1A#6 => pMap (.divl b) (pSrc pImm32 seg m a ws)
  | 0x1B#6 => pMap (.div b) (pSrc pWord seg m a ws)
  | 0x1C#6 => decodeTable2 seg m a b ws
  | 0x1D#6 => pStore .ldlStore seg m a b ws
  | 0x1E#6 =>
    if m = 2#2 then
      if a = 0#4 then .ok (.ret b, ws) else .error .illFormedOperands
    else pMap (.jp b) (pMem seg m a ws)
  | 0x1F#6 =>
    if b = 0#4 then pMap .call (pMem seg m a ws)
    else if m = 2#2 then .error .reservedUpperByte else .error .illFormedOperands
  | 0x20#6 => pMap (.ldbLoad b) (pLdSrc pImm8 seg m a ws)
  | 0x21#6 => pMap (.ldLoad b) (pLdSrc pWord seg m a ws)
  | 0x22#6 => pBit .resb .resbDyn seg m a b ws
  | 0x23#6 => pBit .res .resDyn seg m a b ws
  | 0x24#6 => pBit .setb .setbDyn seg m a b ws
  | 0x25#6 => pBit .set .setDyn seg m a b ws
  | 0x26#6 => pBit .bitb .bitbDyn seg m a b ws
  | 0x27#6 => pBit .bit .bitDyn seg m a b ws
  | 0x28#6 => pMap (fun x => .incb x b) (pRM seg m a ws)
  | 0x29#6 => pMap (fun x => .inc x b) (pRM seg m a ws)
  | 0x2A#6 => pMap (fun x => .decb x b) (pRM seg m a ws)
  | 0x2B#6 => pMap (fun x => .dec x b) (pRM seg m a ws)
  | 0x2C#6 => pMap (.exb b) (pRM seg m a ws)
  | 0x2D#6 => pMap (.ex b) (pRM seg m a ws)
  | 0x2E#6 => if m = 2#2 then .ok (.tccb b a, ws) else pStore .ldbStore seg m a b ws
  | 0x2F#6 => if m = 2#2 then .ok (.tcc b a, ws) else pStore .ldStore seg m a b ws
  | 0x30#6 =>
    if m = 2#2 then
      if b = 0#4 then .ok (.dab a, ws) else .error .reservedSubOpcode
    else pBase (fun x => .ldbLoad b (.mem x)) (.ldrbLoad b) m a ws
  | 0x31#6 =>
    if m = 2#2 then
      match b with
      | 0x0#4 => .ok (.extsb a, ws)
      | 0xA#4 => .ok (.exts a, ws)
      | 0x7#4 => .ok (.extsl a, ws)
      | _ => .error .reservedSubOpcode
    else pBase (fun x => .ldLoad b (.mem x)) (.ldrLoad b) m a ws
  | 0x32#6 =>
    if m = 2#2 then decodeTable4b a b ws
    else pBase (fun x => .ldbStore x b) (fun d => .ldrbStore d b) m a ws
  | 0x33#6 =>
    if m = 2#2 then decodeTable4w a b ws
    else pBase (fun x => .ldStore x b) (fun d => .ldrStore d b) m a ws
  | 0x34#6 =>
    match m with
    | 0#2 => pMap (fun d => if a = 0#4 then .ldar b d else .lda b (.ba a d)) (pWord ws)
    | 1#2 => pMap (fun x => .lda b (.bx a x)) (pIndexWord ws)
    | _ => .ok (.adcb b a, ws)
  | 0x35#6 =>
    if m = 2#2 then .ok (.adc b a, ws)
    else pBase (fun x => .ldlLoad b (.mem x)) (.ldrlLoad b) m a ws
  | 0x36#6 =>
    match m with
    | 0#2 => .error .reservedUpperByte
    | 1#2 => pMap (fun x => .lda b (if a = 0#4 then .da x else .x x a)) (pAddr seg ws)
    | _ => .ok (.sbcb b a, ws)
  | 0x37#6 =>
    if m = 2#2 then .ok (.sbc b a, ws)
    else pBase (fun x => .ldlStore x b) (fun d => .ldrlStore d b) m a ws
  | 0x38#6 => if m = 2#2 then decodeTable5 a b ws else .error .reservedUpperByte
  | 0x39#6 =>
    if b = 0#4 then pMap .ldps (pMem seg m a ws)
    else if m = 2#2 then .error .reservedUpperByte else .error .illFormedOperands
  | 0x3A#6 =>
    match m with
    | 0#2 => decodeTable3b a b ws
    | 1#2 => if a = 0#4 ∧ b = 0#4 then .ok (.halt, ws) else .error .illFormedOperands
    | _ => decodeTable6b a b ws
  | 0x3B#6 =>
    match m with
    | 0#2 => decodeTable3w a b ws
    | 1#2 => decodeTable7 a b ws
    | _ => decodeTable6w a b ws
  | 0x3C#6 =>
    match m with
    | 0#2 => .ok (.inpb b (.ir a), ws)
    | 1#2 =>
      if a ≠ 0#4 ∨ b.getLsbD 3 then .error .illFormedOperands
      else if b.getLsbD 2 then .ok (.ei (b.extractLsb' 0 2), ws) else .ok (.di (b.extractLsb' 0 2), ws)
    | _ => .ok (.rrdb b a, ws)
  | 0x3D#6 =>
    match m with
    | 0#2 => .ok (.inp b (.ir a), ws)
    | 1#2 => decodeLdctl a b ws
    | _ => .ok (.ldk a b, ws)
  | 0x3E#6 =>
    match m with
    | 0#2 => .ok (.outb (.ir a) b, ws)
    | 1#2 => .error .reservedUpperByte
    | _ => .ok (.rldb b a, ws)
  | _ => -- 0x3F
    match m with
    | 0#2 => .ok (.out (.ir a) b, ws)
    | 1#2 => .ok (.sc (a ++ b), ws)
    | _ => .error .reservedUpperByte

/-- Format F2 (R123): mode bits 11. -/
def decodeCompact (w : Word) (ws : List Word) : Parse Instr :=
  match w.extractLsb' 12 2 with
  | 0#2 => .ok (.ldbShort (nib2 w) (w.extractLsb' 0 8), ws)
  | 1#2 => .ok (.calr (w.extractLsb' 0 12), ws)
  | 2#2 => .ok (.jr (nib2 w) (w.extractLsb' 0 8), ws)
  | _ =>
    if w.getLsbD 7 then .ok (.djnz (nib2 w) (w.extractLsb' 0 7), ws)
    else .ok (.dbjnz (nib2 w) (w.extractLsb' 0 7), ws)

/-- The shape of an instruction, before its field values are checked. -/
def decodeShape (seg : Bool) : List Word → Parse Instr
  | [] => .error .truncated
  | w :: ws =>
    if fMode w = 3#2 then decodeCompact w ws
    else decodeF1 seg w (fMode w) (fOp w) (fA w) (fB w) ws

/-- The check that the field values are ones the encoding admits (R150). -/
def accept (seg : Bool) (i : Instr) : Bool := wellFormed seg i

/-- The decoder: an instruction and the words after it, or the reason there is none. -/
def decodeWords (seg : Bool) (ws : List Word) : Parse Instr :=
  match decodeShape seg ws with
  | .error e => .error e
  | .ok (i, rest) => if accept seg i then .ok (i, rest) else .error .illFormedOperands

/-- Bytes to words, high byte first (20_memory R71); a last odd byte is dropped. -/
def wordsOfBytes : List Byte → List Word
  | hi :: lo :: bs => (hi ++ lo) :: wordsOfBytes bs
  | _ => []

/-- Words to bytes, high byte first. -/
def bytesOfWords : List Word → List Byte
  | [] => []
  | w :: ws => w.extractLsb' 8 8 :: w.extractLsb' 0 8 :: bytesOfWords ws

/-- The decoder on bytes as memory holds them. -/
def decode (seg : Bool) (bs : List Byte) : Parse Instr := decodeWords seg (wordsOfBytes bs)

/-- The words of an instruction whose bits are numbered as opcode_table.json numbers them: bit 0 is the
least significant bit of the first word, and bits above `nbits` are 0. Four words, the longest instruction. -/
def tableWords (nbits w : Nat) : List Word :=
  let v := w % 2 ^ nbits
  [BitVec.ofNat 16 v, BitVec.ofNat 16 (v / 2 ^ 16), BitVec.ofNat 16 (v / 2 ^ 32), BitVec.ofNat 16 (v / 2 ^ 48)]

/-- The instruction the decoder reads, nonsegmented, from an instruction given by its bits. -/
def decodeTableWord (nbits w : Nat) : Option Instr :=
  match decode false (bytesOfWords (tableWords nbits w)) with
  | .ok (i, _) => some i
  | .error _ => none

/-! ### The encoder -/

/-- The words of an address (20_memory R83). -/
def Addr.words : Addr → List Word
  | .ns o => [o]
  | .short s o => [0#1 ++ s ++ o]
  | .long s o => [1#1 ++ s ++ 0#8, o]

def Mem.mode : Mem → BitVec 2
  | .ir _ => 0#2
  | .da _ => 1#2
  | .x _ _ => 1#2

def Mem.field : Mem → RegField
  | .ir r => r
  | .da _ => 0#4
  | .x _ i => i

def Mem.words : Mem → List Word
  | .ir _ => []
  | .da a => a.words
  | .x a _ => a.words

def RM.mode : RM → BitVec 2
  | .r _ => 2#2
  | .mem m => m.mode

def RM.field : RM → RegField
  | .r f => f
  | .mem m => m.field

def RM.words : RM → List Word
  | .r _ => []
  | .mem m => m.words

def EpaTail.words (x : EpaTail) : List Word :=
  match x.addr with
  | none => [x.word]
  | some a => x.word :: a.words

/-- A byte immediate fills both bytes of its word (R130). -/
def imm8Words (v : BitVec 8) : List Word := [v ++ v]

def imm32Words (v : BitVec 32) : List Word := [v.extractLsb' 16 16, v.extractLsb' 0 16]

def indexWord (x : RegField) : Word := mkNibs 0#4 x 0#4 0#4

/-- Format F1 with the operand that R124 encodes in the mode bits and one field; `f` is the other field. -/
def encRM (op : BitVec 6) (x : RM) (f : BitVec 4) : List Word := mkWord x.mode op x.field f :: x.words

def encMem (op : BitVec 6) (x : Mem) (f : BitVec 4) : List Word := mkWord x.mode op x.field f :: x.words

def encSrc {n : Nat} (imm : BitVec n → List Word) (op : BitVec 6) (src : Src n) (f : BitVec 4) : List Word :=
  match src with
  | .r g => [mkWord 2#2 op g f]
  | .im v => mkWord 0#2 op 0#4 f :: imm v
  | .mem x => encMem op x f

/-- The loads: `opB` is the opcode of the BA and BX forms. -/
def encMemB (op opB : BitVec 6) (dst : MemB) (f : BitVec 4) : List Word :=
  match dst with
  | .mem x => encMem op x f
  | .ba b d => [mkWord 0#2 opB b f, d]
  | .bx b x => [mkWord 1#2 opB b f, indexWord x]

def encLdSrc {n : Nat} (imm : BitVec n → List Word) (op opB : BitVec 6) (src : LdSrc n) (f : BitVec 4) : List Word :=
  match src with
  | .r g => [mkWord 2#2 op g f]
  | .im v => mkWord 0#2 op 0#4 f :: imm v
  | .mem x => encMemB op opB x f

/-- PUSH, PUSHL, POP, POPL name the stack pointer in field A and the operand in field B. -/
def encStack (op : BitVec 6) (sp : RegField) (x : RM) : List Word := mkWord x.mode op sp x.field :: x.words

/-- A static or dynamic bit instruction (R133). -/
def encDyn (op : BitVec 6) (d f : RegField) : List Word := [mkWord 0#2 op 0#4 f, indexWord d]

/-- A two-word form of F5. -/
def encBlock (m : BitVec 2) (op : BitVec 6) (sub : BitVec 4) (f cnt d : RegField) (low : BitVec 4) : List Word :=
  [mkWord m op f sub, mkNibs 0#4 cnt d low]

def encPort (op : BitVec 6) (f : RegField) (sub : BitVec 4) (p : Word) : List Word := [mkWord 0#2 op f sub, p]

def encLdm (sub : BitVec 4) (x : Mem) (f num : BitVec 4) : List Word :=
  mkWord x.mode 0x1C#6 x.field sub :: mkNibs 0#4 f 0#4 num :: x.words

def CtlReg.code : CtlReg → BitVec 4
  | .fcw => 0x2#4
  | .refresh => 0x3#4
  | .psapseg => 0x4#4
  | .psapoff => 0x5#4
  | .nspseg => 0x6#4
  | .nspoff => 0x7#4

/-- Bit 1 of field B is the rotate count (R132). -/
def rotSub (base : BitVec 4) (two : Bool) : BitVec 4 := if two then base ||| 2#4 else base

/-- The words of an instruction, from the encoding tables of 30_encoding and the pages' formats. DESIGN CHOICE: the
high byte of the count word of SLAB, SLLB, SRAB and SRLB, which the source does not show (45_rotate_shift R383,
91_not_in_source N9), is written 0 (log 53); the decoder ignores it (log 27). -/
def encode : Instr → List Word
  | .clrb d => encRM 0x0C#6 d 0x8#4
  | .clr d => encRM 0x0D#6 d 0x8#4
  | .exb d src => encRM 0x2C#6 src d
  | .ex d src => encRM 0x2D#6 src d
  | .ldbLoad d src => encLdSrc imm8Words 0x20#6 0x30#6 src d
  | .ldbStore dst f => encMemB 0x2E#6 0x32#6 dst f
  | .ldbStoreImm dst v => encMem 0x0C#6 dst 0x5#4 ++ imm8Words v
  | .ldbShort d v => [3#2 ++ 0#2 ++ d ++ v]
  | .ldLoad d src => encLdSrc (fun v => [v]) 0x21#6 0x31#6 src d
  | .ldStore dst f => encMemB 0x2F#6 0x33#6 dst f
  | .ldStoreImm dst v => encMem 0x0D#6 dst 0x5#4 ++ [v]
  | .ldlLoad d src => encLdSrc imm32Words 0x14#6 0x35#6 src d
  | .ldlStore dst f => encMemB 0x1D#6 0x37#6 dst f
  | .lda d src =>
    match src with
    | .da a => mkWord 1#2 0x36#6 0#4 d :: a.words
    | .x a x => mkWord 1#2 0x36#6 x d :: a.words
    | .ba b disp => [mkWord 0#2 0x34#6 b d, disp]
    | .bx b x => [mkWord 1#2 0x34#6 b d, indexWord x]
  | .ldar d disp => [mkWord 0#2 0x34#6 0#4 d, disp]
  | .ldk d v => [mkWord 2#2 0x3D#6 d v]
  | .ldmLoad d src num => encLdm 0x1#4 src d num
  | .ldmStore dst f num => encLdm 0x9#4 dst f num
  | .ldrbLoad d disp => [mkWord 0#2 0x30#6 0#4 d, disp]
  | .ldrLoad d disp => [mkWord 0#2 0x31#6 0#4 d, disp]
  | .ldrlLoad d disp => [mkWord 0#2 0x35#6 0#4 d, disp]
  | .ldrbStore disp f => [mkWord 0#2 0x32#6 0#4 f, disp]
  | .ldrStore disp f => [mkWord 0#2 0x33#6 0#4 f, disp]
  | .ldrlStore disp f => [mkWord 0#2 0x37#6 0#4 f, disp]
  | .pop dst sp => encStack 0x17#6 sp dst
  | .popl dst sp => encStack 0x15#6 sp dst
  | .push sp src =>
    match src with
    | .r f => encStack 0x13#6 sp (.r f)
    | .im v => [mkWord 0#2 0x0D#6 sp 0x9#4, v]
    | .mem x => encStack 0x13#6 sp (.mem x)
  | .pushl sp src => encStack 0x11#6 sp src
  | .adcb d f => [mkWord 2#2 0x34#6 f d]
  | .adc d f => [mkWord 2#2 0x35#6 f d]
  | .addb d src => encSrc imm8Words 0x00#6 src d
  | .add d src => encSrc (fun v => [v]) 0x01#6 src d
  | .addl d src => encSrc imm32Words 0x16#6 src d
  | .sbcb d f => [mkWord 2#2 0x36#6 f d]
  | .sbc d f => [mkWord 2#2 0x37#6 f d]
  | .subb d src => encSrc imm8Words 0x02#6 src d
  | .sub d src => encSrc (fun v => [v]) 0x03#6 src d
  | .subl d src => encSrc imm32Words 0x12#6 src d
  | .cpb d src => encSrc imm8Words 0x0A#6 src d
  | .cp d src => encSrc (fun v => [v]) 0x0B#6 src d
  | .cpl d src => encSrc imm32Words 0x10#6 src d
  | .cpbMemImm dst v => encMem 0x0C#6 dst 0x1#4 ++ imm8Words v
  | .cpMemImm dst v => encMem 0x0D#6 dst 0x1#4 ++ [v]
  | .incb d num => encRM 0x28#6 d num
  | .inc d num => encRM 0x29#6 d num
  | .decb d num => encRM 0x2A#6 d num
  | .dec d num => encRM 0x2B#6 d num
  | .negb d => encRM 0x0C#6 d 0x2#4
  | .neg d => encRM 0x0D#6 d 0x2#4
  | .dab d => [mkWord 2#2 0x30#6 d 0x0#4]
  | .extsb d => [mkWord 2#2 0x31#6 d 0x0#4]
  | .exts d => [mkWord 2#2 0x31#6 d 0xA#4]
  | .extsl d => [mkWord 2#2 0x31#6 d 0x7#4]
  | .mult d src => encSrc (fun v => [v]) 0x19#6 src d
  | .multl d src => encSrc imm32Words 0x18#6 src d
  | .div d src => encSrc (fun v => [v]) 0x1B#6 src d
  | .divl d src => encSrc imm32Words 0x1A#6 src d
  | .andb d src => encSrc imm8Words 0x06#6 src d
  | .and d src => encSrc (fun v => [v]) 0x07#6 src d
  | .orb d src => encSrc imm8Words 0x04#6 src d
  | .or d src => encSrc (fun v => [v]) 0x05#6 src d
  | .xorb d src => encSrc imm8Words 0x08#6 src d
  | .xor d src => encSrc (fun v => [v]) 0x09#6 src d
  | .comb d => encRM 0x0C#6 d 0x0#4
  | .com d => encRM 0x0D#6 d 0x0#4
  | .testb d => encRM 0x0C#6 d 0x4#4
  | .test d => encRM 0x0D#6 d 0x4#4
  | .testl d => encRM 0x1C#6 d 0x8#4
  | .call dst => encMem 0x1F#6 dst 0#4
  | .calr disp => [3#2 ++ 1#2 ++ disp]
  | .djnz r disp => [3#2 ++ 3#2 ++ r ++ 1#1 ++ disp]
  | .dbjnz r disp => [3#2 ++ 3#2 ++ r ++ 0#1 ++ disp]
  | .iret => [mkWord 1#2 0x3B#6 0#4 0#4]
  | .jp cc dst => encMem 0x1E#6 dst cc
  | .jr cc disp => [3#2 ++ 2#2 ++ cc ++ disp]
  | .ret cc => [mkWord 2#2 0x1E#6 0#4 cc]
  | .sc v => [1#2 ++ 0x3F#6 ++ v]
  | .bitb d num => encRM 0x26#6 d num
  | .bit d num => encRM 0x27#6 d num
  | .bitbDyn d f => encDyn 0x26#6 d f
  | .bitDyn d f => encDyn 0x27#6 d f
  | .resb d num => encRM 0x22#6 d num
  | .res d num => encRM 0x23#6 d num
  | .resbDyn d f => encDyn 0x22#6 d f
  | .resDyn d f => encDyn 0x23#6 d f
  | .setb d num => encRM 0x24#6 d num
  | .set d num => encRM 0x25#6 d num
  | .setbDyn d f => encDyn 0x24#6 d f
  | .setDyn d f => encDyn 0x25#6 d f
  | .tccb cc d => [mkWord 2#2 0x2E#6 d cc]
  | .tcc cc d => [mkWord 2#2 0x2F#6 d cc]
  | .tsetb d => encRM 0x0C#6 d 0x6#4
  | .tset d => encRM 0x0D#6 d 0x6#4
  | .rlb d two => [mkWord 2#2 0x32#6 d (rotSub 0x0#4 two)]
  | .rl d two => [mkWord 2#2 0x33#6 d (rotSub 0x0#4 two)]
  | .rlcb d two => [mkWord 2#2 0x32#6 d (rotSub 0x8#4 two)]
  | .rlc d two => [mkWord 2#2 0x33#6 d (rotSub 0x8#4 two)]
  | .rrb d two => [mkWord 2#2 0x32#6 d (rotSub 0x4#4 two)]
  | .rr d two => [mkWord 2#2 0x33#6 d (rotSub 0x4#4 two)]
  | .rrcb d two => [mkWord 2#2 0x32#6 d (rotSub 0xC#4 two)]
  | .rrc d two => [mkWord 2#2 0x33#6 d (rotSub 0xC#4 two)]
  | .rldb link src => [mkWord 2#2 0x3E#6 src link]
  | .rrdb link src => [mkWord 2#2 0x3C#6 src link]
  | .sdab d f => [mkWord 2#2 0x32#6 d 0xB#4, indexWord f]
  | .sda d f => [mkWord 2#2 0x33#6 d 0xB#4, indexWord f]
  | .sdal d f => [mkWord 2#2 0x33#6 d 0xF#4, indexWord f]
  | .sdlb d f => [mkWord 2#2 0x32#6 d 0x3#4, indexWord f]
  | .sdl d f => [mkWord 2#2 0x33#6 d 0x3#4, indexWord f]
  | .sdll d f => [mkWord 2#2 0x33#6 d 0x7#4, indexWord f]
  | .slab d count => mkWord 2#2 0x32#6 d 0x9#4 :: [0#8 ++ count]
  | .sla d count => [mkWord 2#2 0x33#6 d 0x9#4, count]
  | .slal d count => [mkWord 2#2 0x33#6 d 0xD#4, count]
  | .sllb d count => mkWord 2#2 0x32#6 d 0x1#4 :: [0#8 ++ count]
  | .sll d count => [mkWord 2#2 0x33#6 d 0x1#4, count]
  | .slll d count => [mkWord 2#2 0x33#6 d 0x5#4, count]
  | .srab d count => mkWord 2#2 0x32#6 d 0x9#4 :: [0#8 ++ count]
  | .sra d count => [mkWord 2#2 0x33#6 d 0x9#4, count]
  | .sral d count => [mkWord 2#2 0x33#6 d 0xD#4, count]
  | .srlb d count => mkWord 2#2 0x32#6 d 0x1#4 :: [0#8 ++ count]
  | .srl d count => [mkWord 2#2 0x33#6 d 0x1#4, count]
  | .srll d count => [mkWord 2#2 0x33#6 d 0x5#4, count]
  | .cpdb f cnt d cc => encBlock 2#2 0x3A#6 0x8#4 f cnt d cc
  | .cpd f cnt d cc => encBlock 2#2 0x3B#6 0x8#4 f cnt d cc
  | .cpdrb f cnt d cc => encBlock 2#2 0x3A#6 0xC#4 f cnt d cc
  | .cpdr f cnt d cc => encBlock 2#2 0x3B#6 0xC#4 f cnt d cc
  | .cpib f cnt d cc => encBlock 2#2 0x3A#6 0x0#4 f cnt d cc
  | .cpi f cnt d cc => encBlock 2#2 0x3B#6 0x0#4 f cnt d cc
  | .cpirb f cnt d cc => encBlock 2#2 0x3A#6 0x4#4 f cnt d cc
  | .cpir f cnt d cc => encBlock 2#2 0x3B#6 0x4#4 f cnt d cc
  | .cpsdb f cnt d cc => encBlock 2#2 0x3A#6 0xA#4 f cnt d cc
  | .cpsd f cnt d cc => encBlock 2#2 0x3B#6 0xA#4 f cnt d cc
  | .cpsdrb f cnt d cc => encBlock 2#2 0x3A#6 0xE#4 f cnt d cc
  | .cpsdr f cnt d cc => encBlock 2#2 0x3B#6 0xE#4 f cnt d cc
  | .cpsib f cnt d cc => encBlock 2#2 0x3A#6 0x2#4 f cnt d cc
  | .cpsi f cnt d cc => encBlock 2#2 0x3B#6 0x2#4 f cnt d cc
  | .cpsirb f cnt d cc => encBlock 2#2 0x3A#6 0x6#4 f cnt d cc
  | .cpsir f cnt d cc => encBlock 2#2 0x3B#6 0x6#4 f cnt d cc
  | .lddb f cnt d => encBlock 2#2 0x3A#6 0x9#4 f cnt d 0x8#4
  | .ldd f cnt d => encBlock 2#2 0x3B#6 0x9#4 f cnt d 0x8#4
  | .lddrb f cnt d => encBlock 2#2 0x3A#6 0x9#4 f cnt d 0x0#4
  | .lddr f cnt d => encBlock 2#2 0x3B#6 0x9#4 f cnt d 0x0#4
  | .ldib f cnt d => encBlock 2#2 0x3A#6 0x1#4 f cnt d 0x8#4
  | .ldi f cnt d => encBlock 2#2 0x3B#6 0x1#4 f cnt d 0x8#4
  | .ldirb f cnt d => encBlock 2#2 0x3A#6 0x1#4 f cnt d 0x0#4
  | .ldir f cnt d => encBlock 2#2 0x3B#6 0x1#4 f cnt d 0x0#4
  | .trdb d cnt f => encBlock 2#2 0x38#6 0x8#4 d cnt f 0x0#4
  | .trdrb d cnt f => encBlock 2#2 0x38#6 0xC#4 d cnt f 0x0#4
  | .trib d cnt f => encBlock 2#2 0x38#6 0x0#4 d cnt f 0x0#4
  | .trirb d cnt f => encBlock 2#2 0x38#6 0x4#4 d cnt f 0x0#4
  | .trtdb d cnt f => encBlock 2#2 0x38#6 0xA#4 d cnt f 0x0#4
  | .trtdrb d cnt f => encBlock 2#2 0x38#6 0xE#4 d cnt f 0xE#4
  | .trtib d cnt f => encBlock 2#2 0x38#6 0x2#4 d cnt f 0x0#4
  | .trtirb d cnt f => encBlock 2#2 0x38#6 0x6#4 d cnt f 0xE#4
  | .inpb d p =>
    match p with
    | .da q => encPort 0x3A#6 d 0x4#4 q
    | .ir f => [mkWord 0#2 0x3C#6 f d]
  | .inp d p =>
    match p with
    | .da q => encPort 0x3B#6 d 0x4#4 q
    | .ir f => [mkWord 0#2 0x3D#6 f d]
  | .outb p d =>
    match p with
    | .da q => encPort 0x3A#6 d 0x6#4 q
    | .ir f => [mkWord 0#2 0x3E#6 f d]
  | .out p d =>
    match p with
    | .da q => encPort 0x3B#6 d 0x6#4 q
    | .ir f => [mkWord 0#2 0x3F#6 f d]
  | .sinb d p => encPort 0x3A#6 d 0x5#4 p
  | .sin d p => encPort 0x3B#6 d 0x5#4 p
  | .soutb p f => encPort 0x3A#6 f 0x7#4 p
  | .sout p f => encPort 0x3B#6 f 0x7#4 p
  | .indb f cnt d => encBlock 0#2 0x3A#6 0x8#4 f cnt d 0x8#4
  | .ind f cnt d => encBlock 0#2 0x3B#6 0x8#4 f cnt d 0x8#4
  | .indrb f cnt d => encBlock 0#2 0x3A#6 0x8#4 f cnt d 0x0#4
  | .indr f cnt d => encBlock 0#2 0x3B#6 0x8#4 f cnt d 0x0#4
  | .inib f cnt d => encBlock 0#2 0x3A#6 0x0#4 f cnt d 0x8#4
  | .ini f cnt d => encBlock 0#2 0x3B#6 0x0#4 f cnt d 0x8#4
  | .inirb f cnt d => encBlock 0#2 0x3A#6 0x0#4 f cnt d 0x0#4
  | .inir f cnt d => encBlock 0#2 0x3B#6 0x0#4 f cnt d 0x0#4
  | .outdb f cnt d => encBlock 0#2 0x3A#6 0xA#4 f cnt d 0x8#4
  | .outd f cnt d => encBlock 0#2 0x3B#6 0xA#4 f cnt d 0x8#4
  | .otdrb f cnt d => encBlock 0#2 0x3A#6 0xA#4 f cnt d 0x0#4
  | .otdr f cnt d => encBlock 0#2 0x3B#6 0xA#4 f cnt d 0x0#4
  | .outib f cnt d => encBlock 0#2 0x3A#6 0x2#4 f cnt d 0x8#4
  | .outi f cnt d => encBlock 0#2 0x3B#6 0x2#4 f cnt d 0x8#4
  | .otirb f cnt d => encBlock 0#2 0x3A#6 0x2#4 f cnt d 0x0#4
  | .otir f cnt d => encBlock 0#2 0x3B#6 0x2#4 f cnt d 0x0#4
  | .sindb f cnt d => encBlock 0#2 0x3A#6 0x9#4 f cnt d 0x8#4
  | .sind f cnt d => encBlock 0#2 0x3B#6 0x9#4 f cnt d 0x8#4
  | .sindrb f cnt d => encBlock 0#2 0x3A#6 0x9#4 f cnt d 0x0#4
  | .sindr f cnt d => encBlock 0#2 0x3B#6 0x9#4 f cnt d 0x0#4
  | .sinib f cnt d => encBlock 0#2 0x3A#6 0x1#4 f cnt d 0x8#4
  | .sini f cnt d => encBlock 0#2 0x3B#6 0x1#4 f cnt d 0x8#4
  | .sinirb f cnt d => encBlock 0#2 0x3A#6 0x1#4 f cnt d 0x0#4
  | .sinir f cnt d => encBlock 0#2 0x3B#6 0x1#4 f cnt d 0x0#4
  | .soutdb f cnt d => encBlock 0#2 0x3A#6 0xB#4 f cnt d 0x8#4
  | .soutd f cnt d => encBlock 0#2 0x3B#6 0xB#4 f cnt d 0x8#4
  | .sotdrb f cnt d => encBlock 0#2 0x3A#6 0xB#4 f cnt d 0x0#4
  | .sotdr f cnt d => encBlock 0#2 0x3B#6 0xB#4 f cnt d 0x0#4
  | .soutib f cnt d => encBlock 0#2 0x3A#6 0x3#4 f cnt d 0x8#4
  | .souti f cnt d => encBlock 0#2 0x3B#6 0x3#4 f cnt d 0x8#4
  | .sotirb f cnt d => encBlock 0#2 0x3A#6 0x3#4 f cnt d 0x0#4
  | .sotir f cnt d => encBlock 0#2 0x3B#6 0x3#4 f cnt d 0x0#4
  | .comflg mask => [mkWord 2#2 0x0D#6 mask 0x5#4]
  | .resflg mask => [mkWord 2#2 0x0D#6 mask 0x3#4]
  | .setflg mask => [mkWord 2#2 0x0D#6 mask 0x1#4]
  | .nop => [mkWord 2#2 0x0D#6 0#4 0x7#4]
  | .di vn => [mkWord 1#2 0x3C#6 0#4 (0#2 ++ vn)]
  | .ei vn => [mkWord 1#2 0x3C#6 0#4 (1#2 ++ vn)]
  | .halt => [mkWord 1#2 0x3A#6 0#4 0#4]
  | .ldctlRead d c => [mkWord 1#2 0x3D#6 d c.code]
  | .ldctlWrite c f => [mkWord 1#2 0x3D#6 f (c.code ||| 8#4)]
  | .ldctlbRead d => [mkWord 2#2 0x0C#6 d 0x1#4]
  | .ldctlbWrite f => [mkWord 2#2 0x0C#6 f 0x9#4]
  | .ldps src => encMem 0x39#6 src 0#4
  | .mbit => [mkWord 1#2 0x3B#6 0#4 0xA#4]
  | .mreq d => [mkWord 1#2 0x3B#6 d 0xD#4]
  | .mres => [mkWord 1#2 0x3B#6 0#4 0x9#4]
  | .mset => [mkWord 1#2 0x3B#6 0#4 0x8#4]
  | .epaStm dst u1 u2 num => mkWord dst.mode 0x0F#6 dst.field (3#2 ++ u1) :: (u2 ++ num) :: dst.words
  | .epaLdm src u1 u2 num => mkWord src.mode 0x0F#6 src.field (1#2 ++ u1) :: (u2 ++ num) :: src.words
  | .epaLdr u1 u2 u3 d u4 num => [mkWord 2#2 0x0F#6 (0#1 ++ u1) (0#2 ++ u2), mkNibs u3 d u4 num]
  | .epaStr u1 u2 u3 f u4 num => [mkWord 2#2 0x0F#6 (0#1 ++ u1) (2#2 ++ u2), mkNibs u3 f u4 num]
  | .epaLdf u1 u2 u3 u4 => [mkWord 2#2 0x0E#6 u1 (0#2 ++ u2), mkNibs u3 0#4 u4 0#4]
  | .epaStf u1 u2 u3 u4 => [mkWord 2#2 0x0E#6 u1 (2#2 ++ u2), mkNibs u3 0#4 u4 0#4]
  | .epaOp u1 u2 w2 => [mkWord 2#2 0x0E#6 u1 (1#2 ++ u2), w2]
  | .epaOther w1 w2 => w1 :: w2.words

/-- The first word: what the Privileged and Extended Instruction traps push (60_exceptions R612). -/
def firstWord (i : Instr) : Word := (encode i).headD 0#16

/-- The length in words (30_encoding R121). -/
def lengthWords (i : Instr) : Nat := (encode i).length

end Sys2Proof
end

