-- ==== Sys2Proof/Config.lean ====
section
/-! DEFINITION. What an implementation fixes (00_scope R6) and the free values of the model (log 7). -/

namespace Sys2Proof

/-- The two CPU versions (00_scope R1, D1). -/
inductive Variant where
  /-- The segmented version: 7-bit segment numbers, PSAPSEG, NSPSEG, the SEG bit. -/
  | z8001
  /-- The nonsegmented version. -/
  | z8002
  deriving DecidableEq, Repr

/-- `trap_pc_policy` (00_scope R6, D10, 60_exceptions R612): the PC that the Privileged and Extended
Instruction traps save. -/
inductive TrapPcPolicy where
  /-- The address of the trapped instruction + 2; the default. -/
  | afterFirstWord
  /-- The address after the complete instruction. -/
  | nextInstruction
  deriving DecidableEq, Repr

/-- `shift_v_policy` (00_scope R6, D28, 45_rotate_shift R371): V of a multi-bit left shift or rotate. -/
inductive ShiftVPolicy where
  /-- V = 1 if the sign bit changed at any one-bit step; the default. -/
  | anyStep
  /-- V = 1 if the first and the last sign bit differ. -/
  | endpoints
  deriving DecidableEq, Repr

/-- What IN and INB with 0 as port register are (words 3C0x and 3D0x), where the rules of the spec differ: a parameter of
the model's own, so that both readings are modelled (log 18). -/
inductive PortZeroPolicy where
  /-- The port is in R0 (47_io R463, R470); the default. -/
  | register
  /-- They are reserved encodings (30_encoding R150, R195). -/
  | reserved
  deriving DecidableEq, Repr

/-- The parameters of 00_scope R6 that the source leaves open, and `inPortZero` of the model. A machine keeps them for its whole life
(no operation writes them); statements about the machine hold for every value (log 1, 2, 8, 9, 10, 18). -/
structure Config where
  variant : Variant
  trapPcPolicy : TrapPcPolicy
  shiftVPolicy : ShiftVPolicy
  /-- `epu_present` (D12, U21): without an EPU every word the CPU reads from it is a free value. -/
  epuPresent : Bool
  /-- `reset_fcw` (D2, 70 R700), as a 16-bit FCW image. -/
  resetFcw : Word
  /-- The segment number of `reset_pc` (Z8001). -/
  resetPcSeg : BitVec 7
  /-- The offset of `reset_pc`. -/
  resetPcOff : Word
  inPortZero : PortZeroPolicy
  deriving DecidableEq, Repr

/-- The parameter values of the machine after `State.reset`: the defaults of 00_scope R6 where it names
one, and DESIGN CHOICE values for the variant, the reset program status and `inPortZero` (log 1, 2, 18). -/
def Config.default : Config where
  variant := .z8002
  trapPcPolicy := .afterFirstWord
  shiftVPolicy := .anyStep
  epuPresent := false
  resetFcw := 0x4000#16
  resetPcSeg := 0#7
  resetPcOff := 0x1000#16
  inPortZero := .register

/-- The oracle of D14: the `n`-th undefined value of the run, at width `w`. It has no body, so nothing can
be proved about a value of it (log 7). -/
opaque Config.freeValue (w n : Nat) : BitVec w

end Sys2Proof
end

