-- ==== Sys2Proof/Machine/Status.lean ====
section
/-! DEFINITION. The flag and control word as data (10_state R35, R40): its fields, its 16-bit image, and the
condition codes (R37). -/

namespace Sys2Proof.Machine

/-- The six flags (10_state R35). -/
structure Flags where
  c : Bool
  z : Bool
  s : Bool
  /-- P/V: parity or overflow. -/
  pv : Bool
  d : Bool
  h : Bool
  deriving DecidableEq, Repr

/-- The FCW: the control bits and the flags; the reserved bits have no storage (10_state R40, R42, D21). -/
structure Fcw where
  seg : Bool
  /-- S/N: true is system mode. -/
  sn : Bool
  epa : Bool
  vie : Bool
  nvie : Bool
  flags : Flags
  deriving DecidableEq, Repr

/-- The FLAGS byte, reserved bits 0 (10_state R40, D21). -/
def Flags.toByte (f : Flags) : Byte :=
  BitVec.ofBool f.c ++ BitVec.ofBool f.z ++ BitVec.ofBool f.s ++ BitVec.ofBool f.pv ++ BitVec.ofBool f.d
    ++ BitVec.ofBool f.h ++ 0#2

/-- Flags from bits 7:2 of a byte; bits 1:0 are dropped (10_state R42). -/
def Flags.ofByte (b : Byte) : Flags where
  c := b.getLsbD 7
  z := b.getLsbD 6
  s := b.getLsbD 5
  pv := b.getLsbD 4
  d := b.getLsbD 3
  h := b.getLsbD 2

/-- The 16-bit image of the FCW, reserved bits 0; on the Z8002 bit 15 is 0 (10_state R40, R42, D21). -/
def Fcw.toWord (v : Variant) (f : Fcw) : Word :=
  BitVec.ofBool (v == .z8001 && f.seg) ++ BitVec.ofBool f.sn ++ BitVec.ofBool f.epa ++ BitVec.ofBool f.vie
    ++ BitVec.ofBool f.nvie ++ 0#3 ++ f.flags.toByte

/-- The FCW of a 16-bit image: reserved bits dropped, on the Z8002 bit 15 too (10_state R42). -/
def Fcw.ofWord (v : Variant) (w : Word) : Fcw where
  seg := v == .z8001 && w.getLsbD 15
  sn := w.getLsbD 14
  epa := w.getLsbD 13
  vie := w.getLsbD 12
  nvie := w.getLsbD 11
  flags := Flags.ofByte (w.extractLsb' 0 8)

/-- `cond(cc)` (10_state R37), bits 2:0 of the code. -/
def condBase (cc : BitVec 3) (f : Flags) : Bool :=
  match cc with
  | 0#3 => false
  | 1#3 => f.s ^^ f.pv
  | 2#3 => f.z || (f.s ^^ f.pv)
  | 3#3 => f.c || f.z
  | 4#3 => f.pv
  | 5#3 => f.s
  | 6#3 => f.z
  | _ => f.c

/-- `cond(cc)` (10_state R37): bit 3 negates the condition of bits 2:0. -/
def cond (cc : BitVec 4) (f : Flags) : Bool := cc.getLsbD 3 ^^ condBase (cc.extractLsb' 0 3) f

end Sys2Proof.Machine
end

