-- ==== Sys2Proof/Machine/State.lean ====
section
/-! DEFINITION. The state of the machine, the reasons it stops, and the state after reset (10_state,
20_memory R70, 70_reset_and_hazards R700 and R701). -/

namespace Sys2Proof.Machine

/-- Memory as a list of cells, a byte at each listed address; every other byte is 0 (log 4). An address
is `segment * 65536 + offset` (`Address.key`; log 5). -/
abbrev Memory := List Host.Cell

/-- The canonical form: addresses strictly rising and inside the 23-bit space, no cell that holds the 0
an unlisted address reads as. -/
def Memory.wf : Memory → Bool
  | [] => true
  | (a, b) :: m =>
    decide (a < 2 ^ 23) && b != 0#8 && (match m with | [] => true | c :: _ => decide (a < c.1)) && Memory.wf m

/-- The two I/O address spaces (20_memory R70). -/
inductive IoSpace where
  | standard
  | special
  deriving DecidableEq, Repr

/-- One I/O access, in program order (20_memory R88, R90). A byte access carries its value in the low byte. -/
structure IoEvent where
  space : IoSpace
  /-- True for an `IoWrite`. -/
  write : Bool
  /-- True for a 2-byte access. -/
  wide : Bool
  port : Word
  value : Word
  deriving DecidableEq, Repr

/-- What the CPU hands to the EPU (49_extended R553, R555, R557). -/
inductive EpuEvent where
  /-- A word read from memory or from a register. -/
  | word (w : Word)
  /-- The FLAGS byte. -/
  | flags (b : Byte)
  deriving DecidableEq, Repr

/-- A change of the environment's request lines, seen at one boundary (60_exceptions R630; log 12). -/
inductive Arrival where
  /-- A reset request (48_cpu_control R514, 70 R700). -/
  | reset
  /-- The environment sets the NMI latch (60 R607). -/
  | nmi
  /-- The memory management unit raises the segment-trap request (60 R606). -/
  | segtrap
  /-- The vectored-interrupt level (60 R608). -/
  | vi (level : Bool)
  /-- The nonvectored-interrupt level (60 R609). -/
  | nvi (level : Bool)
  deriving DecidableEq, Repr

/-- The machine's state. -/
structure State where
  /-- The parameters of 00_scope R6; nothing changes them. -/
  cfg : Config
  /-- The word registers (10_state R20, R22): 0 to 13 are R0 to R13; 14 is R14 of the system bank (the
  only R14 of the Z8002), 15 is R15 of the system bank, 16 and 17 are R14 and R15 of the normal bank. -/
  regs : Vector Word 18
  /-- PC.seg (10_state R30). -/
  pcSeg : BitVec 7
  /-- PC.off (10_state R30). -/
  pcOff : Word
  /-- The flag and control word (10_state R40). -/
  fcw : Fcw
  /-- PSAPSEG, bits 14:8 (10_state R47). -/
  psapSeg : BitVec 7
  /-- PSAPOFF, bits 15:8 (10_state R47). -/
  psapOff : BitVec 8
  /-- REFRESH, bits 15:1 (10_state R48). -/
  refresh : BitVec 15
  /-- The MO pin: true is high, inactive (10_state R55). -/
  moHigh : Bool
  /-- The CPU executed HALT and waits (10_state R55). -/
  halted : Bool
  /-- The NMI latch (60_exceptions R607). -/
  nmiPending : Bool
  /-- The segment-trap request (60 R606; Z8001). -/
  segtrapRequest : Bool
  /-- The vectored-interrupt level (60 R608). -/
  viRequest : Bool
  /-- The nonvectored-interrupt level (60 R609). -/
  nviRequest : Bool
  /-- The reset request (70 R700). -/
  resetRequest : Bool
  /-- The environment's line changes still to come, one per boundary (log 12). -/
  arrivals : List Arrival
  /-- The environment's answers still to come: identifier words (60 R612), words read from I/O devices
  (20_memory R90), words supplied by the EPU (49 R552, R554, R556), levels of the MI pin, true for high
  (48 R530, R531). An empty list gives free values (log 11). -/
  idIn : List Word
  ioIn : List Word
  epuIn : List Word
  miIn : List Bool
  /-- What the CPU has handed to I/O devices and to the EPU, in program order (log 11). -/
  ioLog : List IoEvent
  epuLog : List EpuEvent
  /-- How many free values the run has taken (log 7). -/
  freeCount : Nat
  /-- Memory (20_memory R70). -/
  mem : Memory
  deriving DecidableEq, Repr

/-- Why the machine stops on an access. -/
inductive Fault where
  /-- Raised by the fetch when PC.off is odd (10_state R30, 20_memory R73, D3, U15). Safe: the machine stops. -/
  | oddFetch
  /-- Raised by every word and long-word access at an odd offset (20_memory R73, D3, U15). Safe. -/
  | oddWordAccess
  deriving DecidableEq, Repr

/-- Why the machine has no next state for an instruction. -/
inductive Refusal where
  /-- Raised by an arm of `exec` whose instruction has no meaning yet. Safe. -/
  | notModelled (mnemonic : String)
  /-- Raised by `step`: the words at the PC are no instruction (30_encoding R150, D13, U2, U3, U11). Safe. -/
  | reserved (r : Reject)
  /-- Raised by the block, string, translate and block I/O instructions whose registers overlap
  (46_block_string R410, R440, U9). Safe. -/
  | registerOverlap
  /-- Raised by a repeat instruction that is to store into its own words (46 R412, 70 R712, U9). Safe. -/
  | repeatOverwritesItself
  /-- Raised by LDCTL naming a control register that the variant or the mode does not have
  (48_cpu_control R521, U10). Safe. -/
  | controlRegisterAbsent
  /-- Raised by IRET on a Z8001 in nonsegmented mode (43_program_control R324, D25, U16). Safe. -/
  | iretNonsegmented
  /-- Raised by an extended opcode that matches no template while EPA = 1 (49_extended R551, U13). Safe. -/
  | epaNoTemplate
  /-- Raised by an extended instruction with EPA = 1 whose address register is no pair in segmented mode
  (10_state R21, U3). Safe. -/
  | epaOddPair
  deriving DecidableEq, Repr

/-- The machine right after reset (70 R700, R701), with the parameters of `Config.default`: FCW and PC from
them, MO high, nothing pending, not halted. R701 leaves every other register unspecified: 0 here, a
DESIGN CHOICE (log 3), as is memory with nothing listed (log 4). -/
def State.reset : State where
  cfg := Config.default
  regs := Vector.replicate 18 0#16
  pcSeg := Config.default.resetPcSeg
  pcOff := Config.default.resetPcOff
  fcw := Fcw.ofWord Config.default.variant Config.default.resetFcw
  psapSeg := 0#7
  psapOff := 0#8
  refresh := 0#15
  moHigh := true
  halted := false
  nmiPending := false
  segtrapRequest := false
  viRequest := false
  nviRequest := false
  resetRequest := false
  arrivals := []
  idIn := []
  ioIn := []
  epuIn := []
  miIn := []
  ioLog := []
  epuLog := []
  freeCount := 0
  mem := []

end Sys2Proof.Machine
end

