-- ==== Sys2Proof/Machine/Ops.lean ====
section
/-! DEFINITION. The named operations over the state: updates, free values, registers, addresses, memory, the
stack, the environment's inputs and outputs, the program status, and taking and leaving a trap or interrupt. -/

namespace Sys2Proof.Machine

/-! ### Outcomes -/

/-- Why an operation has no result. -/
inductive Stop where
  | fault (f : Fault)
  | refused (r : Refusal)
  deriving DecidableEq, Repr

/-- A result or a stop. -/
abbrev Exec (α : Type) := Except Stop α

/-- The outcome of a meaning. -/
def finish : Exec State → Host.Outcome State Fault Refusal
  | .ok s => .next s
  | .error (.fault f) => .fault f
  | .error (.refused r) => .refused r

/-- Refuse unless the condition holds. -/
def require (b : Bool) (r : Refusal) : Exec Unit := if b then .ok () else .error (.refused r)

/-! ### Updates, one per field -/

def State.setRegs (s : State) (v : Vector Word 18) : State := { s with regs := v }
def State.setPcOff (s : State) (v : Word) : State := { s with pcOff := v }
def State.setFcw (s : State) (v : Fcw) : State := { s with fcw := v }
def State.setPsapSeg (s : State) (v : BitVec 7) : State := { s with psapSeg := v }
def State.setPsapOff (s : State) (v : BitVec 8) : State := { s with psapOff := v }
def State.setRefresh (s : State) (v : BitVec 15) : State := { s with refresh := v }
def State.setMoHigh (s : State) (v : Bool) : State := { s with moHigh := v }
def State.setHalted (s : State) (v : Bool) : State := { s with halted := v }
def State.setNmiPending (s : State) (v : Bool) : State := { s with nmiPending := v }
def State.setSegtrapRequest (s : State) (v : Bool) : State := { s with segtrapRequest := v }
def State.setViRequest (s : State) (v : Bool) : State := { s with viRequest := v }
def State.setNviRequest (s : State) (v : Bool) : State := { s with nviRequest := v }
def State.setResetRequest (s : State) (v : Bool) : State := { s with resetRequest := v }
def State.setArrivals (s : State) (v : List Arrival) : State := { s with arrivals := v }
def State.setIdIn (s : State) (v : List Word) : State := { s with idIn := v }
def State.setIoIn (s : State) (v : List Word) : State := { s with ioIn := v }
def State.setEpuIn (s : State) (v : List Word) : State := { s with epuIn := v }
def State.setMiIn (s : State) (v : List Bool) : State := { s with miIn := v }
def State.setIoLog (s : State) (v : List IoEvent) : State := { s with ioLog := v }
def State.setEpuLog (s : State) (v : List EpuEvent) : State := { s with epuLog := v }
def State.setFreeCount (s : State) (v : Nat) : State := { s with freeCount := v }
def State.setMem (s : State) (v : Memory) : State := { s with mem := v }
def State.setPc (s : State) (seg : BitVec 7) (off : Word) : State := { s with pcSeg := seg, pcOff := off }
def State.setFlags (s : State) (f : Flags) : State := { s with fcw := { s.fcw with flags := f } }
def State.took (s : State) (k : Nat) : State := { s with freeCount := s.freeCount + k }

/-! ### Free values (D14, log 7) -/

/-- The `k`-th next free value, at width `w`. -/
def State.fresh (s : State) (k w : Nat) : BitVec w := Config.freeValue w (s.freeCount + k)

/-- The `k`-th next free bit. -/
def State.freshBit (s : State) (k : Nat) : Bool := (s.fresh k 1).getLsbD 0

/-! ### Mode and flags -/

def State.flags (s : State) : Flags := s.fcw.flags

/-- `segmented` (00_scope R8). -/
def State.segmented (s : State) : Bool := s.cfg.variant == .z8001 && s.fcw.seg

/-- The segment number of code, and of data in nonsegmented operation (20_memory R76, D16). -/
def State.curSeg (s : State) : BitVec 7 :=
  match s.cfg.variant with
  | .z8001 => s.pcSeg
  | .z8002 => 0#7

/-! ### Registers (10_state R20 to R22) -/

/-- The place of register field `f` in `State.regs`: R14 and R15 are banked by S/N (R22, D15), R14 on the
Z8001 only. -/
def regSlot (v : Variant) (sn : Bool) (f : RegField) : Fin 18 :=
  if f = 15#4 then (if sn then 15 else 17)
  else if f = 14#4 then (if v = .z8001 ∧ sn = false then 16 else 14)
  else ⟨f.toNat, by omega⟩

def State.slot (s : State) (f : RegField) : Fin 18 := regSlot s.cfg.variant s.fcw.sn f

/-- `R[f]`. -/
def State.readW (s : State) (f : RegField) : Word := s.regs.get (s.slot f)

def State.writeSlot (s : State) (i : Fin 18) (v : Word) : State := s.setRegs (s.regs.set i.val v i.isLt)

def State.writeW (s : State) (f : RegField) (v : Word) : State := s.writeSlot (s.slot f) v

/-- The word register that holds byte register `f` (10_state R21). -/
def byteHome (f : RegField) : RegField := f &&& 7#4

/-- `RB[f]`: fields 0 to 7 are high bytes, 8 to 15 low bytes. -/
def State.readB (s : State) (f : RegField) : Byte :=
  if f.getLsbD 3 then (s.readW (byteHome f)).extractLsb' 0 8 else (s.readW (byteHome f)).extractLsb' 8 8

/-- Writing a byte register leaves the other byte of its word. -/
def State.writeB (s : State) (f : RegField) (v : Byte) : State :=
  let w := s.readW (byteHome f)
  s.writeW (byteHome f) (if f.getLsbD 3 then w.extractLsb' 8 8 ++ v else v ++ w.extractLsb' 0 8)

/-- `RR[f]`: the even register is the high-order word. -/
def State.readL (s : State) (f : RegField) : Long := s.readW f ++ s.readW (f + 1#4)

def State.writeL (s : State) (f : RegField) (v : Long) : State :=
  (s.writeW f (v.extractLsb' 16 16)).writeW (f + 1#4) (v.extractLsb' 0 16)

/-- `RQ[f]`. -/
def State.readQ (s : State) (f : RegField) : Quad := s.readL f ++ s.readL (f + 2#4)

def State.writeQ (s : State) (f : RegField) (v : Quad) : State :=
  (s.writeL f (v.extractLsb' 32 32)).writeL (f + 2#4) (v.extractLsb' 0 32)

/-! ### Addresses (20_memory R75, R76) -/

/-- A memory address. -/
structure Address where
  seg : BitVec 7
  off : Word
  deriving DecidableEq, Repr

/-- Address arithmetic: on the offset only, modulo 2^16 (R75). -/
def Address.add (a : Address) (k : Word) : Address := { a with off := a.off + k }

/-- The key of an address in `Memory` (log 5). -/
def Address.key (a : Address) : Nat := a.seg.toNat * 65536 + a.off.toNat

/-- The key of byte `j` of an operand at `a`. -/
def Address.keyAt (a : Address) (j : Nat) : Nat := (a.add (BitVec.ofNat 16 j)).key

/-- Words and long words lie at even offsets (R73). -/
def Address.even (a : Address) : Bool := a.off.getLsbD 0 == false

/-! ### Memory (20_memory R70, R71, R73) -/

/-- The byte at a key; an unlisted one is 0 (log 4). -/
def Memory.read : Memory → Nat → Byte
  | [], _ => 0#8
  | c :: m, k => if c.1 = k then c.2 else Memory.read m k

/-- A cell put in its place. -/
def Memory.place : Memory → Nat → Byte → Memory
  | [], k, v => [(k, v)]
  | c :: m, k, v => if k < c.1 then (k, v) :: c :: m else c :: Memory.place m k v

def Memory.erase (m : Memory) (k : Nat) : Memory := m.filter fun c => c.1 != k

/-- Writing keeps the canonical form: a byte written 0 is not listed. -/
def Memory.write (m : Memory) (k : Nat) (v : Byte) : Memory :=
  if v = 0#8 then m.erase k else (m.erase k).place k v

/-- `M[A]`. -/
def State.readByte (s : State) (a : Address) : Byte := s.mem.read a.key

def State.writeByte (s : State) (a : Address) (v : Byte) : State := s.setMem (s.mem.write a.key v)

/-- The word at `a`, high byte first (R71). -/
def State.peekWord (s : State) (a : Address) : Word := s.readByte a ++ s.readByte (a.add 1#16)

/-- The long word at `a`. -/
def State.peekLong (s : State) (a : Address) : Long := s.peekWord a ++ s.peekWord (a.add 2#16)

def State.pokeWord (s : State) (a : Address) (v : Word) : State :=
  (s.writeByte a (v.extractLsb' 8 8)).writeByte (a.add 1#16) (v.extractLsb' 0 8)

/-- Two word accesses, lower address first (R86, D5). -/
def State.pokeLong (s : State) (a : Address) (v : Long) : State :=
  (s.pokeWord a (v.extractLsb' 16 16)).pokeWord (a.add 2#16) (v.extractLsb' 0 16)

/-- `MemRead(A, 2)`: an odd offset is refused (R73, D3; log 6). -/
def State.readWord (s : State) (a : Address) : Exec Word :=
  if a.even then .ok (s.peekWord a) else .error (.fault .oddWordAccess)

/-- `MemRead(A, 4)`. -/
def State.readLong (s : State) (a : Address) : Exec Long :=
  if a.even then .ok (s.peekLong a) else .error (.fault .oddWordAccess)

/-- `MemWrite(A, 2, v)`. -/
def State.writeWord (s : State) (a : Address) (v : Word) : Exec State :=
  if a.even then .ok (s.pokeWord a v) else .error (.fault .oddWordAccess)

/-- `MemWrite(A, 4, v)`. -/
def State.writeLong (s : State) (a : Address) (v : Long) : Exec State :=
  if a.even then .ok (s.pokeLong a v) else .error (.fault .oddWordAccess)

/-! ### Pointers and stacks (20_memory R79, R85; 10_state R25) -/

/-- The address a register holds: a word register, or in segmented mode a pair of which bits 30:24 and
15:0 are used. -/
def State.pointer (s : State) (f : RegField) : Address :=
  if s.segmented then { seg := (s.readW f).extractLsb' 8 7, off := s.readW (f + 1#4) }
  else { seg := s.curSeg, off := s.readW f }

/-- The register that holds the offset part of pointer `f`. -/
def State.offField (s : State) (f : RegField) : RegField := if s.segmented then f + 1#4 else f

/-- The registers that make up pointer `f`. -/
def State.pointerFields (s : State) (f : RegField) : List RegField := if s.segmented then [f, f + 1#4] else [f]

/-- The pointer moved by `k`, on its offset only (R75, R85). -/
def State.stepPointer (s : State) (f : RegField) (k : Word) : State :=
  s.writeW (s.offField f) (s.readW (s.offField f) + k)

/-- The processor stack pointer (10_state R23). -/
def State.stackField (s : State) : RegField := if s.segmented then 14#4 else 15#4

/-- `push_w` (R85). -/
def State.pushWord (s : State) (sp : RegField) (v : Word) : Exec State :=
  let t := s.stepPointer sp (-2#16)
  t.writeWord (t.pointer sp) v

/-- `push_l`. -/
def State.pushLong (s : State) (sp : RegField) (v : Long) : Exec State :=
  let t := s.stepPointer sp (-4#16)
  t.writeLong (t.pointer sp) v

/-- `pop_w`. -/
def State.popWord (s : State) (sp : RegField) : Exec (Word × State) := do
  let v ← s.readWord (s.pointer sp)
  .ok (v, s.stepPointer sp 2#16)

/-- `pop_l`. -/
def State.popLong (s : State) (sp : RegField) : Exec (Long × State) := do
  let v ← s.readLong (s.pointer sp)
  .ok (v, s.stepPointer sp 4#16)

/-! ### The environment (log 11) -/

/-- The next answer of an input list, or a free value when the environment has given none. -/
def answer (xs : List Word) (free : Word) : Word := xs.headD free

/-- `IoRead` (20_memory R88, R90): the device's answer, and the access in the event list. A byte access
takes the low byte of the answer. -/
def State.ioReadValue (s : State) : Word := answer s.ioIn (s.fresh 0 16)

def State.ioRead (s : State) (space : IoSpace) (wide : Bool) (port : Word) : Word × State :=
  let v := if wide then s.ioReadValue else s.ioReadValue &&& 0x00FF#16
  (v, ((s.setIoIn s.ioIn.tail).setIoLog
        (s.ioLog ++ [{ space := space, write := false, wide := wide, port := port, value := v }])).took 1)

/-- `IoWrite`. -/
def State.ioWrite (s : State) (space : IoSpace) (wide : Bool) (port v : Word) : State :=
  s.setIoLog (s.ioLog ++ [{ space := space, write := true, wide := wide, port := port, value := v }])

/-- A word from the EPU: its next answer, or a free value where there is no EPU or no answer (49_extended
R559, U21, D12). -/
def State.epuRead (s : State) : Word × State :=
  (if s.cfg.epuPresent then answer s.epuIn (s.fresh 0 16) else s.fresh 0 16,
   ((if s.cfg.epuPresent then s.setEpuIn s.epuIn.tail else s).took 1))

/-- Something handed to the EPU. -/
def State.epuWrite (s : State) (e : EpuEvent) : State := s.setEpuLog (s.epuLog ++ [e])

/-- One sample of the MI pin, true for high (48_cpu_control R530, R531, D22). -/
def State.sampleMi (s : State) : Bool × State :=
  (s.miIn.headD (s.freshBit 0), (s.setMiIn s.miIn.tail).took 1)

/-- The identifier word supplied at an acknowledge (60_exceptions R612, D8). -/
def State.acknowledge (s : State) : Word × State :=
  (answer s.idIn (s.fresh 0 16), (s.setIdIn s.idIn.tail).took 1)

/-! ### The program status -/

/-- The FCW from an image (10_state R42). -/
def State.loadFcw (s : State) (w : Word) : State := s.setFcw (Fcw.ofWord s.cfg.variant w)

/-- The image of the FCW (10_state R40, D21). -/
def State.fcwImage (s : State) : Word := s.fcw.toWord s.cfg.variant

/-- A PC segment word in memory: the number in bits 14:8, the rest 0 (10_state R25, D21). -/
def segWord (seg : BitVec 7) : Word := 0#1 ++ seg ++ 0#8

/-- The segment number of such a word. -/
def segOfWord (w : Word) : BitVec 7 := w.extractLsb' 8 7

/-- `pc_long` (43_program_control R320). -/
def State.pcLong (s : State) : Long := segWord s.pcSeg ++ s.pcOff

/-- `set_pc` (43_program_control R320): the segment number changes in segmented mode only. -/
def State.jumpTo (s : State) (a : Address) : State := if s.segmented then s.setPc a.seg a.off else s.setPcOff a.off

/-! ### Traps and interrupts (60_exceptions) -/

/-- The events with a Program Status Area entry (R601, R620). -/
inductive Event where
  | extended
  | privileged
  | systemCall
  | segmentTrap
  | nmi
  | nvi
  /-- A vectored interrupt with its vector, the low byte of the identifier (R608, R623, D9). -/
  | vi (vector : Byte)
  deriving DecidableEq, Repr

/-- The place of a fixed entry in the area (R620, R623), counted in entries. -/
def Event.entry : Event → Nat
  | .extended => 1
  | .privileged => 2
  | .systemCall => 3
  | .segmentTrap => 4
  | .nmi => 5
  | .nvi => 6
  | .vi _ => 7

/-- Where the new FCW lies, as a byte offset into the area (R623). -/
def Event.fcwOffset (v : Variant) (e : Event) : Nat :=
  match v with
  | .z8002 => 4 * e.entry
  | .z8001 => 8 * e.entry + 2

/-- Where the new PC lies: on the Z8001 its segment word, the offset word following (R623). -/
def Event.pcOffset (v : Variant) (e : Event) : Nat :=
  match v, e with
  | .z8002, .vi n => 30 + 2 * n.toNat
  | .z8002, e => 4 * e.entry + 2
  | .z8001, .vi n => 60 + 2 * n.toNat
  | .z8001, e => 8 * e.entry + 4

/-- The base of the Program Status Area (10_state R47). -/
def State.psaBase (s : State) : Address :=
  { seg := (match s.cfg.variant with | .z8001 => s.psapSeg | .z8002 => 0#7), off := s.psapOff ++ 0#8 }

def State.psaAddr (s : State) (k : Nat) : Address := s.psaBase.add (BitVec.ofNat 16 k)

/-- S/N = 1, and on the Z8001 SEG = 1, for the length of an entry (R611). -/
def State.forceSystem (s : State) : State :=
  s.setFcw { s.fcw with sn := true, seg := s.cfg.variant == .z8001 || s.fcw.seg }

/-- The words pushed by an entry: PC (on the Z8001 offset, then segment word), the old FCW, the identifier
(R610, R613). -/
def State.pushStatus (s : State) (savedSeg : BitVec 7) (savedOff oldFcw id : Word) : Exec State := do
  let s1 ← s.pushWord s.stackField savedOff
  let s2 ← (match s.cfg.variant with
    | .z8001 => s1.pushWord s1.stackField (segWord savedSeg)
    | .z8002 => .ok s1)
  let s3 ← s2.pushWord s2.stackField oldFcw
  s3.pushWord s3.stackField id

/-- The new program status of an entry (R622, R623). -/
def State.loadStatus (s : State) (e : Event) : Exec State := do
  let f ← s.readWord (s.psaAddr (e.fcwOffset s.cfg.variant))
  match s.cfg.variant with
  | .z8002 => do
    let p ← s.readWord (s.psaAddr (e.pcOffset .z8002))
    .ok ((s.loadFcw f).setPcOff p)
  | .z8001 => do
    let g ← s.readWord (s.psaAddr (e.pcOffset .z8001))
    let p ← s.readWord (s.psaAddr (e.pcOffset .z8001 + 2))
    .ok ((s.loadFcw f).setPc (segOfWord g) p)

/-- TAKING a trap or an interrupt (`TrapEntry`, R610): the mode is forced, a halt ends, the old status and
the identifier are pushed on the system stack, the new status is read from the Program Status Area. -/
def State.trapEntry (s : State) (e : Event) (id : Word) (savedSeg : BitVec 7) (savedOff : Word) : Exec State := do
  let t ← (s.forceSystem.setHalted false).pushStatus savedSeg savedOff s.fcwImage id
  t.loadStatus e

/-- The return, IRET (43_program_control R324), in system mode: pops the identifier, the FCW and the PC. -/
def State.trapReturn (s : State) : Exec State :=
  match s.cfg.variant with
  | .z8002 => do
    let (_, s1) ← s.popWord 15#4
    let (f, s2) ← s1.popWord 15#4
    let (p, s3) ← s2.popWord 15#4
    .ok ((s3.loadFcw f).setPcOff p)
  | .z8001 =>
    if s.fcw.seg then do
      let (_, s1) ← s.popWord 14#4
      let (f, s2) ← s1.popWord 14#4
      let (g, s3) ← s2.popWord 14#4
      let (p, s4) ← s3.popWord 14#4
      .ok ((s4.loadFcw f).setPc (segOfWord g) p)
    else .error (.refused .iretNonsegmented)

/-- The PC that a decode-time trap saves (R612, D10): under the default policy the address of the first
word + 2. `len` is the instruction's length in words; PC is already past the instruction. -/
def State.decodeTrapPc (s : State) (len : Nat) : Word :=
  match s.cfg.trapPcPolicy with
  | .afterFirstWord => s.pcOff - BitVec.ofNat 16 (2 * (len - 1))
  | .nextInstruction => s.pcOff

/-- The Privileged or Extended Instruction trap on instruction `i` (R602, R604, R612). -/
def State.decodeTrap (s : State) (e : Event) (i : Instr) : Exec State :=
  s.trapEntry e (firstWord i) s.pcSeg (s.decodeTrapPc (lengthWords i))

/-- A privileged instruction (R604): its effect in system mode, the trap in normal mode. -/
def State.privileged (s : State) (i : Instr) (body : Exec State) : Exec State :=
  if s.fcw.sn then body else s.decodeTrap .privileged i

/-- An extended instruction (49_extended R550): its effect with EPA = 1, the trap with EPA = 0. -/
def State.extended (s : State) (i : Instr) (body : Exec State) : Exec State :=
  if s.fcw.epa then body else s.decodeTrap .extended i

end Sys2Proof.Machine
end

