-- ==== Sys2Proof/Machine/Fetch.lean ====
section
/-! DEFINITION. Fetching an instruction (10_state R30 to R32, 20_memory R103, 30_encoding R120). -/

namespace Sys2Proof.Machine

/-- Where the next instruction lies. -/
def State.pcAddr (s : State) : Address := { seg := s.curSeg, off := s.pcOff }

/-- The four words at the PC, as many as the longest instruction has; the offset wraps (R32, D4). Words past
the instruction are not looked at: memory reads have no side effects (20_memory R88). -/
def State.wordsAtPc (s : State) : List Word :=
  [s.peekWord s.pcAddr, s.peekWord (s.pcAddr.add 2#16), s.peekWord (s.pcAddr.add 4#16), s.peekWord (s.pcAddr.add 6#16)]

/-- The fetch; an odd PC is refused (R30, D3; log 6). -/
def State.fetch (s : State) : Exec (List Word) :=
  if s.pcAddr.even then .ok s.wordsAtPc else .error (.fault .oddFetch)

/-- Whether a decoded instruction is a reserved encoding by the parameter `inPortZero`: IN or INB with 0 as port register
(30_encoding R150, R195 against 47_io R463; log 18). -/
def State.reservedPort (s : State) (i : Instr) : Bool :=
  s.cfg.inPortZero == .reserved && match i with
    | .inpb _ (.ir f) => f == 0#4
    | .inp _ (.ir f) => f == 0#4
    | _ => false

/-- The PC past an instruction of `n` words (R31). -/
def State.advance (s : State) (n : Nat) : State := s.setPcOff (s.pcOff + BitVec.ofNat 16 (2 * n))

/-- The instruction words stored as memory holds them, from an address on. -/
def State.storeWords (s : State) (a : Address) : List Word → State
  | [] => s
  | w :: ws => (s.pokeWord a w).storeWords (a.add 2#16) ws

end Sys2Proof.Machine
end

