-- ==== Sys2Proof/Machine/Boundary.lean ====
section
/-! DEFINITION. The boundary between instructions: requests, priority, acceptance, halt, reset
(60_exceptions R606 to R609, R630 to R633; 70_reset_and_hazards R700). -/

namespace Sys2Proof.Machine

/-- A change of the request lines. The segment trap exists on the Z8001 only (R606). -/
def State.arrive (s : State) : Arrival → State
  | .reset => s.setResetRequest true
  | .nmi => s.setNmiPending true
  | .segtrap => (match s.cfg.variant with | .z8001 => s.setSegtrapRequest true | .z8002 => s)
  | .vi b => s.setViRequest b
  | .nvi b => s.setNviRequest b

/-- The change of the lines that the environment makes before this boundary, if any (log 12). -/
def State.latch (s : State) : State :=
  match s.arrivals with
  | [] => s
  | a :: rest => (s.setArrivals rest).arrive a

/-- What happens at a boundary (R630, R632). -/
inductive BoundaryEvent where
  | reset
  | nmi
  | segmentTrap
  | vi
  | nvi
  /-- Nothing is taken and the CPU stays halted (R633). -/
  | halted
  /-- The next instruction is fetched. -/
  | run
  deriving DecidableEq, Repr

/-- The order of the tests (R630, R632, D7): reset ends everything, then NMI, segment trap, VI, NVI. -/
def State.boundaryEvent (s : State) : BoundaryEvent :=
  if s.resetRequest then .reset
  else if s.nmiPending then .nmi
  else if s.segtrapRequest && s.cfg.variant == .z8001 then .segmentTrap
  else if s.viRequest && s.fcw.vie then .vi
  else if s.nviRequest && s.fcw.nvie then .nvi
  else if s.halted then .halted
  else .run

/-- The reset event (70 R700, R701): FCW and PC from the parameters, MO high, nothing pending; the rest of
the CPU's registers take free values; memory and the environment are as they were. -/
def State.resetEvent (s : State) : State :=
  { s with
    regs := Vector.ofFn fun i => s.fresh i.val 16
    pcSeg := (match s.cfg.variant with | .z8001 => s.cfg.resetPcSeg | .z8002 => 0#7)
    pcOff := s.cfg.resetPcOff
    fcw := Fcw.ofWord s.cfg.variant s.cfg.resetFcw
    psapSeg := (match s.cfg.variant with | .z8001 => s.fresh 18 7 | .z8002 => 0#7)
    psapOff := s.fresh 19 8
    refresh := s.fresh 20 15
    moHigh := true
    halted := false
    nmiPending := false
    segtrapRequest := false
    resetRequest := false
    freeCount := s.freeCount + 21 }

/-- "take X" (R630): the identifier from the environment, then the entry with the PC of the boundary. -/
def State.takeEvent (s : State) (e : Word → Event) : Exec State :=
  let id := s.acknowledge.1
  s.acknowledge.2.trapEntry (e id) id s.pcSeg s.pcOff

/-- NMI clears its latch (R607, R630). -/
def State.takeNmi (s : State) : Exec State := (s.setNmiPending false).takeEvent fun _ => .nmi

/-- The segment trap clears its request (R606). -/
def State.takeSegmentTrap (s : State) : Exec State := (s.setSegtrapRequest false).takeEvent fun _ => .segmentTrap

/-- The low byte of the identifier is the vector (R608, R623). -/
def State.takeVi (s : State) : Exec State := s.takeEvent fun id => .vi (id.extractLsb' 0 8)

def State.takeNvi (s : State) : Exec State := s.takeEvent fun _ => .nvi

end Sys2Proof.Machine
end

