-- ==== Sys2Proof/Machine/Flags.lean ====
section
/-! DEFINITION. Results and flags as functions of the operand values: addition and subtraction (41_arithmetic
R250), the logical flags (42_logical R300), negation, decimal adjust, multiplication, division, and the
one-bit steps of the rotates and shifts (45_rotate_shift R370 to R372). -/

namespace Sys2Proof.Machine

/-- A two-operand operation: destination, source and flags give the result and the flags. -/
abbrev Alu (n : Nat) := BitVec n → BitVec n → Flags → BitVec n × Flags

/-- A one-operand operation. -/
abbrev Alu1 (n : Nat) := BitVec n → Flags → BitVec n × Flags

/-! ### Addition and subtraction (R250) -/

/-- `ADD_N`: the sum modulo `2^N`. -/
def addR {n : Nat} (a b : BitVec n) (c : Bool) : BitVec n := a + b + BitVec.ofNat n c.toNat

/-- `ADD_N`: the carry out of the most significant bit. -/
def addC {n : Nat} (a b : BitVec n) (c : Bool) : Bool := decide (2 ^ n ≤ a.toNat + b.toNat + c.toNat)

/-- `ADD_N`: overflow, both operands of one sign and the result of the other. -/
def addV {n : Nat} (a b : BitVec n) (c : Bool) : Bool := a.msb == b.msb && (addR a b c).msb != a.msb

/-- `ADD_N`: the carry out of bit 3. -/
def addH {n : Nat} (a b : BitVec n) (c : Bool) : Bool := decide (16 ≤ a.toNat % 16 + b.toNat % 16 + c.toNat)

/-- `SUB_N`: the difference modulo `2^N`. -/
def subR {n : Nat} (a b : BitVec n) (c : Bool) : BitVec n := a - b - BitVec.ofNat n c.toNat

/-- `SUB_N`: the borrow. -/
def subC {n : Nat} (a b : BitVec n) (c : Bool) : Bool := decide (a.toNat < b.toNat + c.toNat)

/-- `SUB_N`: overflow, operands of opposite signs and the result of the source's sign. -/
def subV {n : Nat} (a b : BitVec n) (c : Bool) : Bool := a.msb != b.msb && (subR a b c).msb == b.msb

/-- `SUB_N`: the borrow into bit 3. -/
def subH {n : Nat} (a b : BitVec n) (c : Bool) : Bool := decide (a.toNat % 16 < b.toNat % 16 + c.toNat)

/-- Z and S of a result. -/
def Flags.zs {n : Nat} (f : Flags) (r : BitVec n) : Flags := { f with z := r == 0, s := r.msb }

/-- ADD, ADDL, ADC (R252, R253): C, Z, S, V; D and H unaffected. -/
def addAlu {n : Nat} (cin : Bool) : Alu n := fun a b f =>
  (addR a b cin, { f.zs (addR a b cin) with c := addC a b cin, pv := addV a b cin })

/-- ADDB, ADCB (R252, R253): D cleared, H the carry out of bit 3. -/
def addAluB (cin : Bool) : Alu 8 := fun a b f =>
  (addR a b cin, { f.zs (addR a b cin) with c := addC a b cin, pv := addV a b cin, d := false, h := addH a b cin })

/-- SUB, SUBL, SBC, and the comparison of CP, CPB, CPL (R254 to R257). -/
def subAlu {n : Nat} (cin : Bool) : Alu n := fun a b f =>
  (subR a b cin, { f.zs (subR a b cin) with c := subC a b cin, pv := subV a b cin })

/-- SUBB, SBCB (R254, R255): D set, H the borrow. -/
def subAluB (cin : Bool) : Alu 8 := fun a b f =>
  (subR a b cin, { f.zs (subR a b cin) with c := subC a b cin, pv := subV a b cin, d := true, h := subH a b cin })

/-- ADC: the carry flag is the carry in. -/
def adcAlu {n : Nat} : Alu n := fun a b f => addAlu f.c a b f
def adcAluB : Alu 8 := fun a b f => addAluB f.c a b f
def sbcAlu {n : Nat} : Alu n := fun a b f => subAlu f.c a b f
def sbcAluB : Alu 8 := fun a b f => subAluB f.c a b f

/-- INC, INCB by `field + 1` (R258): Z, S, V; C, D, H unaffected. -/
def incAlu {n : Nat} (field : BitVec 4) : Alu1 n := fun a f =>
  let b := BitVec.ofNat n (field.toNat + 1)
  (addR a b false, { f.zs (addR a b false) with pv := addV a b false })

/-- DEC, DECB by `field + 1` (R259). -/
def decAlu {n : Nat} (field : BitVec 4) : Alu1 n := fun a f =>
  let b := BitVec.ofNat n (field.toNat + 1)
  (subR a b false, { f.zs (subR a b false) with pv := subV a b false })

/-- NEG, NEGB (R260): C = 0 exactly when the result is 0, V exactly for the most negative value. -/
def negAlu {n : Nat} : Alu1 n := fun a f =>
  (-a, { f.zs (-a) with c := (-a) != 0, pv := (-a) == BitVec.intMin n })

/-! ### Logical operations (42_logical R300) -/

/-- The number of one bits among the low `k` bits. -/
def onesBelow {n : Nat} (v : BitVec n) : Nat → Nat
  | 0 => 0
  | k + 1 => onesBelow v k + (v.getLsbD k).toNat

/-- `parity(v)`: the number of one bits is even (10_state R35, 40 R200). -/
def parityEven {n : Nat} (v : BitVec n) : Bool := onesBelow v n % 2 == 0

/-- Flags of a word result: Z and S. -/
def logicFlags {n : Nat} (r : BitVec n) (f : Flags) : Flags := f.zs r

/-- Flags of a byte result: Z, S and the parity. -/
def logicFlagsB (r : Byte) (f : Flags) : Flags := { f.zs r with pv := parityEven r }

def andAlu : Alu 16 := fun a b f => (a &&& b, logicFlags (a &&& b) f)
def andAluB : Alu 8 := fun a b f => (a &&& b, logicFlagsB (a &&& b) f)
def orAlu : Alu 16 := fun a b f => (a ||| b, logicFlags (a ||| b) f)
def orAluB : Alu 8 := fun a b f => (a ||| b, logicFlagsB (a ||| b) f)
def xorAlu : Alu 16 := fun a b f => (a ^^^ b, logicFlags (a ^^^ b) f)
def xorAluB : Alu 8 := fun a b f => (a ^^^ b, logicFlagsB (a ^^^ b) f)
def comAlu : Alu1 16 := fun a f => (~~~a, logicFlags (~~~a) f)
def comAluB : Alu1 8 := fun a f => (~~~a, logicFlagsB (~~~a) f)

/-! ### Bits (44_bit_manipulation) -/

/-- The value with bit `b` cleared, or set. -/
def clearBit {n : Nat} (v : BitVec n) (b : Nat) : BitVec n := v &&& ~~~(BitVec.twoPow n b)
def setBit {n : Nat} (v : BitVec n) (b : Nat) : BitVec n := v ||| BitVec.twoPow n b

/-! ### Decimal adjust (41_arithmetic R261) -/

/-- The table of R261, with the row that C23 adds: the number added and C after; `none` where no row
matches (U7). -/
def dabRow (d c h : Bool) (hi lo : BitVec 4) : Option (Byte × Bool) :=
  match d, c, h with
  | false, false, false =>
    if hi ≤ 9#4 ∧ lo ≤ 9#4 then some (0x00#8, false)
    else if hi ≤ 8#4 ∧ 10#4 ≤ lo then some (0x06#8, false)
    else if 10#4 ≤ hi ∧ lo ≤ 9#4 then some (0x60#8, true)
    else some (0x66#8, true)
  | false, false, true =>
    if lo ≤ 3#4 then
      if hi ≤ 9#4 then some (0x06#8, false) else some (0x66#8, true)
    else none
  | false, true, false =>
    if hi ≤ 2#4 then
      if lo ≤ 9#4 then some (0x60#8, true) else some (0x66#8, true)
    else none
  | false, true, true => if hi ≤ 3#4 ∧ lo ≤ 3#4 then some (0x66#8, true) else none
  | true, false, false => if hi ≤ 9#4 ∧ lo ≤ 9#4 then some (0x00#8, false) else none
  | true, false, true => if hi ≤ 8#4 ∧ 6#4 ≤ lo then some (0xFA#8, false) else none
  | true, true, false => if 7#4 ≤ hi ∧ lo ≤ 9#4 then some (0xA0#8, true) else none
  | true, true, true => if 6#4 ≤ hi ∧ 6#4 ≤ lo then some (0x9A#8, true) else none

/-! ### Multiply and divide (41_arithmetic R263, R264) -/

/-- The product of two signed `n`-bit values, as an integer. -/
def mulInt {n : Nat} (a b : BitVec n) : Int := a.toInt * b.toInt

/-- Flags of MULT (`n = 16`) and MULTL (`n = 32`): C when the product needs the upper half. -/
def mulFlags (n : Nat) (p : Int) (f : Flags) : Flags :=
  { f with c := decide (p < -(2 ^ (n - 1) : Int) ∨ (2 ^ (n - 1) : Int) ≤ p), z := decide (p = 0),
           s := decide (p < 0), pv := false }

/-- The four cases of R264, for a dividend and a `w`-bit divisor as integers. -/
inductive DivCase where
  /-- CASE 2: the divisor is zero. -/
  | byZero
  /-- CASE 1: the quotient fits in `w` bits. -/
  | fits (q r : Int)
  /-- CASE 4: the quotient needs `w + 1` bits. -/
  | oneBitOver (q r : Int)
  /-- CASE 3: the quotient is further out of range. -/
  | tooLarge
  deriving DecidableEq, Repr

/-- Division truncated toward zero (R264). -/
def divCase (w : Nat) (n v : Int) : DivCase :=
  if v = 0 then .byZero
  else
    let q := n.tdiv v
    let r := n - q * v
    if -(2 ^ (w - 1) : Int) ≤ q ∧ q ≤ 2 ^ (w - 1) - 1 then .fits q r
    else if q < -(2 ^ w : Int) ∨ 2 ^ w - 1 < q then .tooLarge
    else .oneBitOver q r

/-! ### Rotates and shifts (45_rotate_shift R370 to R372) -/

/-- A one-bit step: the value and the carry before give those after. -/
abbrev Step1 (n : Nat) := BitVec n → Bool → BitVec n × Bool

/-- Shift left, `b` into bit 0. -/
def shlIn {n : Nat} (v : BitVec n) (b : Bool) : BitVec n := (v <<< 1) ||| BitVec.ofNat n b.toNat

/-- Shift right, `b` into the most significant bit. -/
def shrIn {n : Nat} (v : BitVec n) (b : Bool) : BitVec n :=
  (v >>> 1) ||| (if b then BitVec.twoPow n (n - 1) else 0)

def rlStep {n : Nat} : Step1 n := fun v _ => (shlIn v v.msb, v.msb)
def rrStep {n : Nat} : Step1 n := fun v _ => (shrIn v (v.getLsbD 0), v.getLsbD 0)
def rlcStep {n : Nat} : Step1 n := fun v c => (shlIn v c, v.msb)
def rrcStep {n : Nat} : Step1 n := fun v c => (shrIn v c, v.getLsbD 0)
def shlStep {n : Nat} : Step1 n := fun v _ => (shlIn v false, v.msb)
def sraStep {n : Nat} : Step1 n := fun v _ => (shrIn v v.msb, v.getLsbD 0)
def srlStep {n : Nat} : Step1 n := fun v _ => (shrIn v false, v.getLsbD 0)

/-- `k` steps: the value, the carry, and whether the sign changed at any of them. -/
def steps {n : Nat} (st : Step1 n) : Nat → BitVec n → Bool → BitVec n × Bool × Bool
  | 0, v, c => (v, c, false)
  | k + 1, v, c =>
    let one := st v c
    let rest := steps st k one.1 one.2
    (rest.1, rest.2.1, (one.1.msb != v.msb) || rest.2.2)

/-- V of R371 under a policy (D28). -/
def stepsV {n : Nat} (pol : ShiftVPolicy) (st : Step1 n) (k : Nat) (v : BitVec n) (c : Bool) : Bool :=
  match pol with
  | .anyStep => (steps st k v c).2.2
  | .endpoints => (steps st k v c).1.msb != v.msb

/-- A rotate by one or two positions (R373 to R376): C, Z, S and V. -/
def rotAlu {n : Nat} (pol : ShiftVPolicy) (st : Step1 n) (two : Bool) : Alu1 n := fun v f =>
  let k := if two then 2 else 1
  let out := steps st k v f.c
  (out.1, { f.zs out.1 with c := out.2.1, pv := stepsV pol st k v f.c })

/-- The direction of a nonzero count `k`: left for a positive one (R379, R380). -/
def shiftStep {n : Nat} (arith : Bool) (k : Int) : Step1 n :=
  if 0 < k then shlStep else if arith then sraStep else srlStep

/-- The range of a shift count (R372). -/
def shiftInRange (n : Nat) (k : Int) : Bool := decide (-(n : Int) ≤ k ∧ k ≤ n)

end Sys2Proof.Machine
end

