-- ==== Sys2Proof/Machine/Operands.lean ====
section
/-! DEFINITION. Every operand form (20_memory R77 to R84, 30_encoding R124): its effective address, reading
it, writing it, and the shared shapes of the one- and two-operand instructions. An effective address is
computed once, before the instruction changes anything (40_load_exchange R200). -/

namespace Sys2Proof.Machine

/-! ### Effective addresses -/

/-- An address in the instruction (R80, R83). -/
def State.addrOf (s : State) : Addr → Address
  | .ns o => { seg := s.curSeg, off := o }
  | .short g o => { seg := g, off := o.setWidth 16 }
  | .long g o => { seg := g, off := o }

/-- IR, DA, X (R79 to R81). -/
def State.ea (s : State) : Mem → Address
  | .ir r => s.pointer r
  | .da a => s.addrOf a
  | .x a i => (s.addrOf a).add (s.readW i)

/-- With BA and BX (R84). -/
def State.eaB (s : State) : MemB → Address
  | .mem m => s.ea m
  | .ba b d => (s.pointer b).add d
  | .bx b i => (s.pointer b).add (s.readW i)

/-- The address that LDA computes (40_load_exchange R206). -/
def State.eaSrc (s : State) : EaSrc → Address
  | .da a => s.addrOf a
  | .x a i => (s.addrOf a).add (s.readW i)
  | .ba b d => (s.pointer b).add d
  | .bx b i => (s.pointer b).add (s.readW i)

/-- RA (R82): relative to the updated PC, in its segment. -/
def State.eaRel (s : State) (disp : Word) : Address := { seg := s.curSeg, off := s.pcOff + disp }

/-! ### Reading operands -/

def State.memB (s : State) (m : Mem) : Exec Byte := .ok (s.readByte (s.ea m))
def State.memW (s : State) (m : Mem) : Exec Word := s.readWord (s.ea m)
def State.memL (s : State) (m : Mem) : Exec Long := s.readLong (s.ea m)

def State.rmB (s : State) : RM → Exec Byte
  | .r f => .ok (s.readB f)
  | .mem m => s.memB m

def State.rmW (s : State) : RM → Exec Word
  | .r f => .ok (s.readW f)
  | .mem m => s.memW m

def State.rmL (s : State) : RM → Exec Long
  | .r f => .ok (s.readL f)
  | .mem m => s.memL m

def State.srcB (s : State) : Src 8 → Exec Byte
  | .r f => .ok (s.readB f)
  | .im v => .ok v
  | .mem m => s.memB m

def State.srcW (s : State) : Src 16 → Exec Word
  | .r f => .ok (s.readW f)
  | .im v => .ok v
  | .mem m => s.memW m

def State.srcL (s : State) : Src 32 → Exec Long
  | .r f => .ok (s.readL f)
  | .im v => .ok v
  | .mem m => s.memL m

def State.ldB (s : State) : LdSrc 8 → Exec Byte
  | .r f => .ok (s.readB f)
  | .im v => .ok v
  | .mem m => .ok (s.readByte (s.eaB m))

def State.ldW (s : State) : LdSrc 16 → Exec Word
  | .r f => .ok (s.readW f)
  | .im v => .ok v
  | .mem m => s.readWord (s.eaB m)

def State.ldL (s : State) : LdSrc 32 → Exec Long
  | .r f => .ok (s.readL f)
  | .im v => .ok v
  | .mem m => s.readLong (s.eaB m)

/-! ### Writing operands -/

def State.putB (s : State) (d : RM) (v : Byte) : Exec State :=
  match d with
  | .r f => .ok (s.writeB f v)
  | .mem m => .ok (s.writeByte (s.ea m) v)

def State.putW (s : State) (d : RM) (v : Word) : Exec State :=
  match d with
  | .r f => .ok (s.writeW f v)
  | .mem m => s.writeWord (s.ea m) v

/-! ### Shapes -/

/-- `dst <- dst op src` with a byte register destination (41_arithmetic R251). -/
def State.twoOpB (s : State) (op : Alu 8) (d : RegField) (src : Src 8) : Exec State := do
  let b ← s.srcB src
  let out := op (s.readB d) b s.flags
  .ok ((s.writeB d out.1).setFlags out.2)

def State.twoOpW (s : State) (op : Alu 16) (d : RegField) (src : Src 16) : Exec State := do
  let b ← s.srcW src
  let out := op (s.readW d) b s.flags
  .ok ((s.writeW d out.1).setFlags out.2)

def State.twoOpL (s : State) (op : Alu 32) (d : RegField) (src : Src 32) : Exec State := do
  let b ← s.srcL src
  let out := op (s.readL d) b s.flags
  .ok ((s.writeL d out.1).setFlags out.2)

/-- The comparison of two values: only the flags are written (R256, R257). -/
def State.compareOp {n : Nat} (s : State) (a b : BitVec n) : State := s.setFlags (subAlu false a b s.flags).2

/-- `dst <- op dst`, read once and written once (20_memory R86). -/
def State.oneOpB (s : State) (op : Alu1 8) (d : RM) : Exec State := do
  let a ← s.rmB d
  let out := op a s.flags
  let t ← s.putB d out.1
  .ok (t.setFlags out.2)

def State.oneOpW (s : State) (op : Alu1 16) (d : RM) : Exec State := do
  let a ← s.rmW d
  let out := op a s.flags
  let t ← s.putW d out.1
  .ok (t.setFlags out.2)

/-! ### Registers in common, blocks and repeats (46_block_string R410, R412) -/

/-- Two lists of registers have one in common. -/
def overlap (xs ys : List RegField) : Bool := xs.any fun x => ys.contains x

/-- No register stands in two of the lists (R410). -/
def separate : List (List RegField) → Bool
  | [] => true
  | x :: xs => xs.all (fun y => !overlap x y) && separate xs

/-- `count(r)` without its flag (R410). -/
def State.countDown (s : State) (r : RegField) : State := s.writeW r (s.readW r - 1#16)

/-- `step(p, k)` for each pointer, then `count(r)` (R410). -/
def State.stepBlock (s : State) (ptrs : List RegField) (k : Word) (cnt : RegField) : State :=
  (ptrs.foldl (fun t p => t.stepPointer p k) s).countDown cnt

/-- The counter reached 0 (R410). -/
def State.counted (s : State) (cnt : RegField) : Bool := s.readW cnt == 0#16

/-- The end of one iteration of a repeat form: done, or the PC back at its first word (R412, D24). -/
def State.again (s : State) (done : Bool) : State := if done then s else s.setPcOff (s.pcOff - 4#16)

/-- The `n` bytes at `a` are none of the four bytes of the two-word instruction before the PC (R412, U9). -/
def State.sparesOwnWords (s : State) (a : Address) (n : Nat) : Bool :=
  let own : Address := { seg := s.curSeg, off := s.pcOff - 4#16 }
  (List.range n).all fun j => (List.range 4).all fun k => a.keyAt j != own.keyAt k

end Sys2Proof.Machine
end

