-- ==== Sys2Proof/Machine/Arithmetic.lean ====
section
/-! DEFINITION. Arithmetic (41_arithmetic R252 to R264). -/

namespace Sys2Proof.Machine

/-! ### Shared operations -/

/-- DAB (R261): a matching row of the table adjusts the byte; without one the byte and C, Z, S are free (U7,
log 24). -/
def decimalAdjust (d : RegField) (s : State) : State :=
  let b := s.readB d
  let f := s.flags
  match dabRow f.d f.c f.h (b.extractLsb' 4 4) (b.extractLsb' 0 4) with
  | some (add, c) => (s.writeB d (b + add)).setFlags { f.zs (b + add) with c := c }
  | none =>
    (((s.writeB d (s.fresh 0 8)).setFlags
      { f with c := s.freshBit 1, z := s.freshBit 2, s := s.freshBit 3 })).took 4

/-- The flags of DIV, DIVL where the quotient and the remainder are stored (R264, cases 1 and 4). -/
def divFlags (q : Int) (big : Bool) (f : Flags) : Flags :=
  { f with pv := big, c := big, z := decide (q = 0), s := decide (q < 0) }

/-- DIV by cases (R264); in case 3 the destination and S are free (U8). -/
def divideWord (d : RegField) (v : Word) (s : State) : State :=
  let f := s.flags
  match divCase 16 (s.readL d).toInt v.toInt with
  | .byZero => s.setFlags { f with pv := true, z := true, c := false, s := false }
  | .fits q r => (s.writeL d (BitVec.ofInt 16 r ++ BitVec.ofInt 16 q)).setFlags (divFlags q false f)
  | .oneBitOver q r => (s.writeL d (BitVec.ofInt 16 r ++ BitVec.ofInt 16 q)).setFlags (divFlags q true f)
  | .tooLarge =>
    ((s.writeL d (s.fresh 0 32)).setFlags { f with pv := true, c := false, z := false, s := s.freshBit 1 }).took 2

/-- DIVL by cases (R264). -/
def divideLong (d : RegField) (v : Long) (s : State) : State :=
  let f := s.flags
  match divCase 32 (s.readQ d).toInt v.toInt with
  | .byZero => s.setFlags { f with pv := true, z := true, c := false, s := false }
  | .fits q r => (s.writeQ d (BitVec.ofInt 32 r ++ BitVec.ofInt 32 q)).setFlags (divFlags q false f)
  | .oneBitOver q r => (s.writeQ d (BitVec.ofInt 32 r ++ BitVec.ofInt 32 q)).setFlags (divFlags q true f)
  | .tooLarge =>
    ((s.writeQ d (s.fresh 0 64)).setFlags { f with pv := true, c := false, z := false, s := s.freshBit 1 }).took 2

/-! ### Meanings -/

def execAdcb (d f : RegField) (s : State) : Host.Outcome State Fault Refusal := finish (s.twoOpB adcAluB d (.r f))

def execAdc (d f : RegField) (s : State) : Host.Outcome State Fault Refusal := finish (s.twoOpW adcAlu d (.r f))

def execAddb (d : RegField) (src : Src 8) (s : State) : Host.Outcome State Fault Refusal :=
  finish (s.twoOpB (addAluB false) d src)

def execAdd (d : RegField) (src : Src 16) (s : State) : Host.Outcome State Fault Refusal :=
  finish (s.twoOpW (addAlu false) d src)

def execAddl (d : RegField) (src : Src 32) (s : State) : Host.Outcome State Fault Refusal :=
  finish (s.twoOpL (addAlu false) d src)

def execSbcb (d f : RegField) (s : State) : Host.Outcome State Fault Refusal := finish (s.twoOpB sbcAluB d (.r f))

def execSbc (d f : RegField) (s : State) : Host.Outcome State Fault Refusal := finish (s.twoOpW sbcAlu d (.r f))

def execSubb (d : RegField) (src : Src 8) (s : State) : Host.Outcome State Fault Refusal :=
  finish (s.twoOpB (subAluB false) d src)

def execSub (d : RegField) (src : Src 16) (s : State) : Host.Outcome State Fault Refusal :=
  finish (s.twoOpW (subAlu false) d src)

def execSubl (d : RegField) (src : Src 32) (s : State) : Host.Outcome State Fault Refusal :=
  finish (s.twoOpL (subAlu false) d src)

def execCpb (d : RegField) (src : Src 8) (s : State) : Host.Outcome State Fault Refusal := finish do
  let b ← s.srcB src
  .ok (s.compareOp (s.readB d) b)

def execCp (d : RegField) (src : Src 16) (s : State) : Host.Outcome State Fault Refusal := finish do
  let b ← s.srcW src
  .ok (s.compareOp (s.readW d) b)

def execCpl (d : RegField) (src : Src 32) (s : State) : Host.Outcome State Fault Refusal := finish do
  let b ← s.srcL src
  .ok (s.compareOp (s.readL d) b)

/-- CPB of memory with an immediate (R257). -/
def execCpbMemImm (dst : Mem) (v : BitVec 8) (s : State) : Host.Outcome State Fault Refusal := finish do
  let a ← s.memB dst
  .ok (s.compareOp a v)

def execCpMemImm (dst : Mem) (v : BitVec 16) (s : State) : Host.Outcome State Fault Refusal := finish do
  let a ← s.memW dst
  .ok (s.compareOp a v)

def execIncb (d : RM) (num : BitVec 4) (s : State) : Host.Outcome State Fault Refusal :=
  finish (s.oneOpB (incAlu num) d)

def execInc (d : RM) (num : BitVec 4) (s : State) : Host.Outcome State Fault Refusal :=
  finish (s.oneOpW (incAlu num) d)

def execDecb (d : RM) (num : BitVec 4) (s : State) : Host.Outcome State Fault Refusal :=
  finish (s.oneOpB (decAlu num) d)

def execDec (d : RM) (num : BitVec 4) (s : State) : Host.Outcome State Fault Refusal :=
  finish (s.oneOpW (decAlu num) d)

def execNegb (d : RM) (s : State) : Host.Outcome State Fault Refusal := finish (s.oneOpB negAlu d)

def execNeg (d : RM) (s : State) : Host.Outcome State Fault Refusal := finish (s.oneOpW negAlu d)

def execDab (d : RegField) (s : State) : Host.Outcome State Fault Refusal := finish (.ok (decimalAdjust d s))

/-- EXTSB (R262): the destination is a word register. -/
def execExtsb (d : RegField) (s : State) : Host.Outcome State Fault Refusal :=
  finish (.ok (s.writeW d (((s.readW d).extractLsb' 0 8).signExtend 16)))

def execExts (d : RegField) (s : State) : Host.Outcome State Fault Refusal :=
  finish (.ok (s.writeL d (((s.readL d).extractLsb' 0 16).signExtend 32)))

def execExtsl (d : RegField) (s : State) : Host.Outcome State Fault Refusal :=
  finish (.ok (s.writeQ d (((s.readQ d).extractLsb' 0 32).signExtend 64)))

/-- MULT (R263): the multiplicand is the low-order half of the pair. -/
def execMult (d : RegField) (src : Src 16) (s : State) : Host.Outcome State Fault Refusal := finish do
  let v ← s.srcW src
  let p := mulInt (s.readW (d + 1#4)) v
  .ok ((s.writeL d (BitVec.ofInt 32 p)).setFlags (mulFlags 16 p s.flags))

def execMultl (d : RegField) (src : Src 32) (s : State) : Host.Outcome State Fault Refusal := finish do
  let v ← s.srcL src
  let p := mulInt (s.readL (d + 2#4)) v
  .ok ((s.writeQ d (BitVec.ofInt 64 p)).setFlags (mulFlags 32 p s.flags))

def execDiv (d : RegField) (src : Src 16) (s : State) : Host.Outcome State Fault Refusal := finish do
  let v ← s.srcW src
  .ok (divideWord d v s)

def execDivl (d : RegField) (src : Src 32) (s : State) : Host.Outcome State Fault Refusal := finish do
  let v ← s.srcL src
  .ok (divideLong d v s)

end Sys2Proof.Machine
end

