-- ==== Sys2Proof/Machine/BitManip.lean ====
section
/-! DEFINITION. Bit manipulation (44_bit_manipulation R350 to R362). -/

namespace Sys2Proof.Machine

/-! ### Shared operations -/

/-- A static bit number: four bits for words, the low three for bytes (R350). -/
def bitNoW (num : BitVec 4) : Nat := num.toNat
def bitNoB (num : BitVec 4) : Nat := num.toNat % 8

/-- A dynamic bit number from a word register (R350). -/
def State.dynBitW (s : State) (f : RegField) : Nat := (s.readW f).toNat % 16
def State.dynBitB (s : State) (f : RegField) : Nat := (s.readW f).toNat % 8

/-- BIT (R351): Z is the complement of the bit. -/
def testBit {n : Nat} (v : BitVec n) (b : Nat) (s : State) : State := s.setFlags { s.flags with z := !v.getLsbD b }

/-- A destination rewritten with no effect on the flags (R352, R353). -/
def modifyB (op : Byte → Byte) (d : RM) (s : State) : Exec State := do
  let a ← s.rmB d
  s.putB d (op a)

def modifyW (op : Word → Word) (d : RM) (s : State) : Exec State := do
  let a ← s.rmW d
  s.putW d (op a)

/-! ### Meanings -/

def execBitb (d : RM) (num : BitVec 4) (s : State) : Host.Outcome State Fault Refusal := finish do
  let a ← s.rmB d
  .ok (testBit a (bitNoB num) s)

def execBit (d : RM) (num : BitVec 4) (s : State) : Host.Outcome State Fault Refusal := finish do
  let a ← s.rmW d
  .ok (testBit a (bitNoW num) s)

def execBitbDyn (d f : RegField) (s : State) : Host.Outcome State Fault Refusal :=
  finish (.ok (testBit (s.readB d) (s.dynBitB f) s))

def execBitDyn (d f : RegField) (s : State) : Host.Outcome State Fault Refusal :=
  finish (.ok (testBit (s.readW d) (s.dynBitW f) s))

def execResb (d : RM) (num : BitVec 4) (s : State) : Host.Outcome State Fault Refusal :=
  finish (modifyB (fun v => clearBit v (bitNoB num)) d s)

def execRes (d : RM) (num : BitVec 4) (s : State) : Host.Outcome State Fault Refusal :=
  finish (modifyW (fun v => clearBit v (bitNoW num)) d s)

def execResbDyn (d f : RegField) (s : State) : Host.Outcome State Fault Refusal :=
  finish (modifyB (fun v => clearBit v (s.dynBitB f)) (.r d) s)

def execResDyn (d f : RegField) (s : State) : Host.Outcome State Fault Refusal :=
  finish (modifyW (fun v => clearBit v (s.dynBitW f)) (.r d) s)

def execSetb (d : RM) (num : BitVec 4) (s : State) : Host.Outcome State Fault Refusal :=
  finish (modifyB (fun v => setBit v (bitNoB num)) d s)

def execSet (d : RM) (num : BitVec 4) (s : State) : Host.Outcome State Fault Refusal :=
  finish (modifyW (fun v => setBit v (bitNoW num)) d s)

def execSetbDyn (d f : RegField) (s : State) : Host.Outcome State Fault Refusal :=
  finish (modifyB (fun v => setBit v (s.dynBitB f)) (.r d) s)

def execSetDyn (d f : RegField) (s : State) : Host.Outcome State Fault Refusal :=
  finish (modifyW (fun v => setBit v (s.dynBitW f)) (.r d) s)

/-- TCCB (R354): bit 0 is set when the condition holds, and kept otherwise. -/
def execTccb (cc : BitVec 4) (d : RegField) (s : State) : Host.Outcome State Fault Refusal :=
  finish (.ok (if cond cc s.flags then s.writeB d (setBit (s.readB d) 0) else s))

def execTcc (cc : BitVec 4) (d : RegField) (s : State) : Host.Outcome State Fault Refusal :=
  finish (.ok (if cond cc s.flags then s.writeW d (setBit (s.readW d) 0) else s))

/-- TSETB (R362): S is the old sign, then all ones. -/
def execTsetb (d : RM) (s : State) : Host.Outcome State Fault Refusal :=
  finish (s.oneOpB (fun a f => (0xFF#8, { f with s := a.msb })) d)

def execTset (d : RM) (s : State) : Host.Outcome State Fault Refusal :=
  finish (s.oneOpW (fun a f => (0xFFFF#16, { f with s := a.msb })) d)

end Sys2Proof.Machine
end

