-- ==== Sys2Proof/Machine/BlockString.lean ====
section
/-! DEFINITION. Block transfer and string manipulation (46_block_string R410 to R448). A repeat form makes one
iteration per step (R412). -/

namespace Sys2Proof.Machine

/-! ### Elements -/

/-- One element of a string, byte or word (R410). -/
def getB (s : State) (a : Address) : Exec Byte := .ok (s.readByte a)
def getW (s : State) (a : Address) : Exec Word := s.readWord a
def storeB (s : State) (a : Address) (v : Byte) : Exec State := .ok (s.writeByte a v)
def storeW (s : State) (a : Address) (v : Word) : Exec State := s.writeWord a v

/-! ### One iteration: the state after it, and whether a search ends there -/

/-- CPI, CPD (R420, R422): the comparison of a register value with an element; C and S are free. -/
def searchStep {n : Nat} (get : State → Address → Exec (BitVec n)) (v : BitVec n) (home : RegField) (k : Word)
    (f cnt : RegField) (cc : BitVec 4) (s : State) : Exec (State × Bool) := do
  require (separate [s.pointerFields f, [cnt], [home]]) .registerOverlap
  let b ← get s (s.pointer f)
  let hit := cond cc (subAlu false v b s.flags).2
  let t := s.stepBlock [f] k cnt
  .ok ((t.setFlags { s.flags with
    z := hit, c := s.freshBit 0, s := s.freshBit 1, pv := t.counted cnt }).took 2, hit)

/-- CPSI, CPSD (R424, R426): the comparison of two elements; C and S are those of the comparison. -/
def compareStep {n : Nat} (get : State → Address → Exec (BitVec n)) (k : Word) (f cnt d : RegField)
    (cc : BitVec 4) (s : State) : Exec (State × Bool) := do
  require (separate [s.pointerFields d, s.pointerFields f, [cnt]]) .registerOverlap
  let a ← get s (s.pointer d)
  let b ← get s (s.pointer f)
  let cf := (subAlu false a b s.flags).2
  let t := s.stepBlock [d, f] k cnt
  .ok (t.setFlags { s.flags with z := cond cc cf, c := cf.c, s := cf.s, pv := t.counted cnt }, cond cc cf)

/-- LDI, LDD (R430, R432): one element moved; Z is free. `rep`: a repeat form does not overwrite itself. -/
def moveStep {n : Nat} (rep : Bool) (get : State → Address → Exec (BitVec n))
    (store : State → Address → BitVec n → Exec State) (k : Word) (f cnt d : RegField) (s : State) :
    Exec (State × Bool) := do
  require (separate [s.pointerFields d, s.pointerFields f, [cnt]]) .registerOverlap
  require (!rep || s.sparesOwnWords (s.pointer d) (n / 8)) .repeatOverwritesItself
  let v ← get s (s.pointer f)
  let u ← store s (s.pointer d) v
  let t := u.stepBlock [d, f] k cnt
  .ok ((t.setFlags { s.flags with z := s.freshBit 0, pv := t.counted cnt }).took 1, false)

/-- The translation value (R440): the byte of the table at `f` that the byte at `d` selects. -/
def State.translation (s : State) (d f : RegField) : Byte :=
  s.readByte ((s.pointer f).add ((s.readByte (s.pointer d)).setWidth 16))

/-- Pointers, counter and R1 are separate registers (R440). -/
def translateRegs (d cnt f : RegField) (s : State) : Exec Unit :=
  require (separate [s.pointerFields d, s.pointerFields f, [cnt], [1#4]]) .registerOverlap

/-- TRIB, TRDB (R441, R443): the target byte is replaced; RH1 and Z are free. -/
def translateStep (rep : Bool) (k : Word) (d cnt f : RegField) (s : State) : Exec (State × Bool) := do
  translateRegs d cnt f s
  require (!rep || s.sparesOwnWords (s.pointer d) 1) .repeatOverwritesItself
  let t := (s.writeByte (s.pointer d) (s.translation d f)).stepBlock [d] k cnt
  .ok (((t.writeB 1#4 (s.fresh 0 8)).setFlags { s.flags with z := s.freshBit 1, pv := t.counted cnt }).took 2, false)

/-- TRTIB, TRTDB (R445, R447): RH1 takes the translation value; a nonzero one ends the repeat forms. -/
def translateTestStep (k : Word) (d cnt f : RegField) (s : State) : Exec (State × Bool) := do
  translateRegs d cnt f s
  let v := s.translation d f
  let t := s.stepBlock [d] k cnt
  .ok ((t.writeB 1#4 v).setFlags { s.flags with z := v == 0#8, pv := t.counted cnt }, v != 0#8)

/-! ### Single and repeat forms -/

/-- A single form. -/
def once (x : Exec (State × Bool)) : Exec State := do
  let (t, _) ← x
  .ok t

/-- One iteration of a repeat form: it ends where the search ends or the counter reached 0, which P/V shows
(R410, R412). -/
def repeated (x : Exec (State × Bool)) : Exec State := do
  let (t, hit) ← x
  .ok (t.again (hit || t.fcw.flags.pv))

/-! ### Meanings -/

/-- CPDB, CPD (R420). -/
def execCpdb (f cnt d : RegField) (cc : BitVec 4) (s : State) : Host.Outcome State Fault Refusal :=
  finish (once (searchStep getB (s.readB d) (byteHome d) (-1#16) f cnt cc s))

def execCpd (f cnt d : RegField) (cc : BitVec 4) (s : State) : Host.Outcome State Fault Refusal :=
  finish (once (searchStep getW (s.readW d) d (-2#16) f cnt cc s))

/-- CPDRB, CPDR (R421). -/
def execCpdrb (f cnt d : RegField) (cc : BitVec 4) (s : State) : Host.Outcome State Fault Refusal :=
  finish (repeated (searchStep getB (s.readB d) (byteHome d) (-1#16) f cnt cc s))

def execCpdr (f cnt d : RegField) (cc : BitVec 4) (s : State) : Host.Outcome State Fault Refusal :=
  finish (repeated (searchStep getW (s.readW d) d (-2#16) f cnt cc s))

/-- CPIB, CPI (R422). -/
def execCpib (f cnt d : RegField) (cc : BitVec 4) (s : State) : Host.Outcome State Fault Refusal :=
  finish (once (searchStep getB (s.readB d) (byteHome d) 1#16 f cnt cc s))

def execCpi (f cnt d : RegField) (cc : BitVec 4) (s : State) : Host.Outcome State Fault Refusal :=
  finish (once (searchStep getW (s.readW d) d 2#16 f cnt cc s))

/-- CPIRB, CPIR (R423). -/
def execCpirb (f cnt d : RegField) (cc : BitVec 4) (s : State) : Host.Outcome State Fault Refusal :=
  finish (repeated (searchStep getB (s.readB d) (byteHome d) 1#16 f cnt cc s))

def execCpir (f cnt d : RegField) (cc : BitVec 4) (s : State) : Host.Outcome State Fault Refusal :=
  finish (repeated (searchStep getW (s.readW d) d 2#16 f cnt cc s))

/-- CPSDB, CPSD (R424). -/
def execCpsdb (f cnt d : RegField) (cc : BitVec 4) (s : State) : Host.Outcome State Fault Refusal :=
  finish (once (compareStep getB (-1#16) f cnt d cc s))

def execCpsd (f cnt d : RegField) (cc : BitVec 4) (s : State) : Host.Outcome State Fault Refusal :=
  finish (once (compareStep getW (-2#16) f cnt d cc s))

/-- CPSDRB, CPSDR (R425). -/
def execCpsdrb (f cnt d : RegField) (cc : BitVec 4) (s : State) : Host.Outcome State Fault Refusal :=
  finish (repeated (compareStep getB (-1#16) f cnt d cc s))

def execCpsdr (f cnt d : RegField) (cc : BitVec 4) (s : State) : Host.Outcome State Fault Refusal :=
  finish (repeated (compareStep getW (-2#16) f cnt d cc s))

/-- CPSIB, CPSI (R426). -/
def execCpsib (f cnt d : RegField) (cc : BitVec 4) (s : State) : Host.Outcome State Fault Refusal :=
  finish (once (compareStep getB 1#16 f cnt d cc s))

def execCpsi (f cnt d : RegField) (cc : BitVec 4) (s : State) : Host.Outcome State Fault Refusal :=
  finish (once (compareStep getW 2#16 f cnt d cc s))

/-- CPSIRB, CPSIR (R427). -/
def execCpsirb (f cnt d : RegField) (cc : BitVec 4) (s : State) : Host.Outcome State Fault Refusal :=
  finish (repeated (compareStep getB 1#16 f cnt d cc s))

def execCpsir (f cnt d : RegField) (cc : BitVec 4) (s : State) : Host.Outcome State Fault Refusal :=
  finish (repeated (compareStep getW 2#16 f cnt d cc s))

/-- LDDB, LDD (R430). -/
def execLddb (f cnt d : RegField) (s : State) : Host.Outcome State Fault Refusal :=
  finish (once (moveStep false getB storeB (-1#16) f cnt d s))

def execLdd (f cnt d : RegField) (s : State) : Host.Outcome State Fault Refusal :=
  finish (once (moveStep false getW storeW (-2#16) f cnt d s))

/-- LDDRB, LDDR (R431). -/
def execLddrb (f cnt d : RegField) (s : State) : Host.Outcome State Fault Refusal :=
  finish (repeated (moveStep true getB storeB (-1#16) f cnt d s))

def execLddr (f cnt d : RegField) (s : State) : Host.Outcome State Fault Refusal :=
  finish (repeated (moveStep true getW storeW (-2#16) f cnt d s))

/-- LDIB, LDI (R432). -/
def execLdib (f cnt d : RegField) (s : State) : Host.Outcome State Fault Refusal :=
  finish (once (moveStep false getB storeB 1#16 f cnt d s))

def execLdi (f cnt d : RegField) (s : State) : Host.Outcome State Fault Refusal :=
  finish (once (moveStep false getW storeW 2#16 f cnt d s))

/-- LDIRB, LDIR (R433). -/
def execLdirb (f cnt d : RegField) (s : State) : Host.Outcome State Fault Refusal :=
  finish (repeated (moveStep true getB storeB 1#16 f cnt d s))

def execLdir (f cnt d : RegField) (s : State) : Host.Outcome State Fault Refusal :=
  finish (repeated (moveStep true getW storeW 2#16 f cnt d s))

/-- TRDB (R441). -/
def execTrdb (d cnt f : RegField) (s : State) : Host.Outcome State Fault Refusal :=
  finish (once (translateStep false (-1#16) d cnt f s))

/-- TRDRB (R442). -/
def execTrdrb (d cnt f : RegField) (s : State) : Host.Outcome State Fault Refusal :=
  finish (repeated (translateStep true (-1#16) d cnt f s))

/-- TRIB (R443). -/
def execTrib (d cnt f : RegField) (s : State) : Host.Outcome State Fault Refusal :=
  finish (once (translateStep false 1#16 d cnt f s))

/-- TRIRB (R444). -/
def execTrirb (d cnt f : RegField) (s : State) : Host.Outcome State Fault Refusal :=
  finish (repeated (translateStep true 1#16 d cnt f s))

/-- TRTDB (R445). -/
def execTrtdb (d cnt f : RegField) (s : State) : Host.Outcome State Fault Refusal :=
  finish (once (translateTestStep (-1#16) d cnt f s))

/-- TRTDRB (R446). -/
def execTrtdrb (d cnt f : RegField) (s : State) : Host.Outcome State Fault Refusal :=
  finish (repeated (translateTestStep (-1#16) d cnt f s))

/-- TRTIB (R447). -/
def execTrtib (d cnt f : RegField) (s : State) : Host.Outcome State Fault Refusal :=
  finish (once (translateTestStep 1#16 d cnt f s))

/-- TRTIRB (R448). -/
def execTrtirb (d cnt f : RegField) (s : State) : Host.Outcome State Fault Refusal :=
  finish (repeated (translateTestStep 1#16 d cnt f s))

end Sys2Proof.Machine
end

