-- ==== Sys2Proof/Machine/CpuControl.lean ====
section
/-! DEFINITION. CPU control (48_cpu_control R510 to R533). -/

namespace Sys2Proof.Machine

/-! ### Shared operations -/

/-- The interrupt enables of DI and EI (R512, R513): a 0 bit of the field selects VI (bit 1) or NVI (bit 0). -/
def setEnables (vn : BitVec 2) (on : Bool) (s : State) : State :=
  s.setFcw { s.fcw with
    vie := if vn.getLsbD 1 then s.fcw.vie else on
    nvie := if vn.getLsbD 0 then s.fcw.nvie else on }

/-- NSPSEG exists on the Z8001 in segmented mode, PSAPSEG on the Z8001 (R521, U10). -/
def State.hasControl (s : State) : CtlReg → Bool
  | .psapseg => s.cfg.variant == .z8001
  | .nspseg => s.segmented
  | _ => true

/-- The normal-mode R14 and R15 (10_state R22). -/
def nspSegSlot : Fin 18 := 16
def nspOffSlot : Fin 18 := 17

/-- What LDCTL reads; the bits that are undefined take free values (R522). -/
def State.readControl (s : State) : CtlReg → Word
  | .fcw => s.fcwImage.extractLsb' 11 5 ++ s.fresh 0 3 ++ s.fcwImage.extractLsb' 2 6 ++ s.fresh 1 2
  | .refresh => s.fresh 0 7 ++ s.refresh.extractLsb' 0 8 ++ s.fresh 1 1
  | .psapseg => s.fresh 0 1 ++ s.psapSeg ++ s.fresh 1 8
  | .psapoff => s.psapOff ++ s.fresh 0 8
  | .nspseg => s.regs.get nspSegSlot
  | .nspoff => s.regs.get nspOffSlot

/-- What LDCTL writes; the other bits of the word are ignored (R521). -/
def State.writeControl (s : State) (c : CtlReg) (w : Word) : State :=
  match c with
  | .fcw => s.loadFcw w
  | .refresh => s.setRefresh (w.extractLsb' 1 15)
  | .psapseg => s.setPsapSeg (w.extractLsb' 8 7)
  | .psapoff => s.setPsapOff (w.extractLsb' 8 8)
  | .nspseg => s.writeSlot nspSegSlot w
  | .nspoff => s.writeSlot nspOffSlot w

/-- LDPS (R524): the block's format is that of the segmentation mode. -/
def loadProgramStatus (a : Address) (s : State) : Exec State :=
  if s.segmented then do
    let f ← s.readWord (a.add 2#16)
    let g ← s.readWord (a.add 4#16)
    let p ← s.readWord (a.add 6#16)
    .ok ((s.loadFcw f).setPc (segOfWord g) p)
  else do
    let f ← s.readWord a
    let p ← s.readWord (a.add 2#16)
    .ok ((s.loadFcw f).setPcOff p)

/-- MREQ (R531), the first and the second sample of MI; the delay loop leaves the register 0. -/
def multiRequest (d : RegField) (s : State) : State :=
  let first := s.sampleMi
  if first.1 then
    let second := (first.2.setMoHigh false).sampleMi
    let t := second.2.writeW d 0#16
    (t.setMoHigh second.1).setFlags { s.flags with z := true, s := !second.1 }
  else (first.2.setMoHigh true).setFlags { s.flags with z := false, s := false }

/-! ### Meanings -/

/-- COMFLG (R511): the mask bits are C, Z, S, P/V from bit 3 down; H is free (C8). -/
def execComflg (mask : BitVec 4) (s : State) : Host.Outcome State Fault Refusal :=
  let f := s.flags
  finish (.ok ((s.setFlags { f with
    c := f.c ^^ mask.getLsbD 3, z := f.z ^^ mask.getLsbD 2, s := f.s ^^ mask.getLsbD 1,
    pv := f.pv ^^ mask.getLsbD 0, h := s.freshBit 0 }).took 1))

/-- RESFLG (R516). -/
def execResflg (mask : BitVec 4) (s : State) : Host.Outcome State Fault Refusal :=
  let f := s.flags
  finish (.ok (s.setFlags { f with
    c := f.c && !mask.getLsbD 3, z := f.z && !mask.getLsbD 2, s := f.s && !mask.getLsbD 1,
    pv := f.pv && !mask.getLsbD 0 }))

/-- SETFLG (R517). -/
def execSetflg (mask : BitVec 4) (s : State) : Host.Outcome State Fault Refusal :=
  let f := s.flags
  finish (.ok (s.setFlags { f with
    c := f.c || mask.getLsbD 3, z := f.z || mask.getLsbD 2, s := f.s || mask.getLsbD 1,
    pv := f.pv || mask.getLsbD 0 }))

/-- NOP (R515). -/
def execNop (s : State) : Host.Outcome State Fault Refusal := finish (.ok s)

/-- DI (R512). -/
def execDi (vn : BitVec 2) (s : State) : Host.Outcome State Fault Refusal :=
  finish (s.privileged (.di vn) (.ok (setEnables vn false s)))

/-- EI (R513). -/
def execEi (vn : BitVec 2) (s : State) : Host.Outcome State Fault Refusal :=
  finish (s.privileged (.ei vn) (.ok (setEnables vn true s)))

/-- HALT (R514). -/
def execHalt (s : State) : Host.Outcome State Fault Refusal :=
  finish (s.privileged .halt (.ok (s.setHalted true)))

/-- LDCTL from a control register (R522). -/
def execLdctlRead (d : RegField) (c : CtlReg) (s : State) : Host.Outcome State Fault Refusal :=
  finish (s.privileged (.ldctlRead d c) do
    require (s.hasControl c) .controlRegisterAbsent
    .ok ((s.writeW d (s.readControl c)).took 2))

/-- LDCTL into a control register (R521). -/
def execLdctlWrite (c : CtlReg) (f : RegField) (s : State) : Host.Outcome State Fault Refusal :=
  finish (s.privileged (.ldctlWrite c f) do
    require (s.hasControl c) .controlRegisterAbsent
    .ok (s.writeControl c (s.readW f)))

/-- LDCTLB from FLAGS (R523), not privileged. -/
def execLdctlbRead (d : RegField) (s : State) : Host.Outcome State Fault Refusal :=
  finish (.ok (s.writeB d s.flags.toByte))

/-- LDCTLB into FLAGS (R523). -/
def execLdctlbWrite (f : RegField) (s : State) : Host.Outcome State Fault Refusal :=
  finish (.ok (s.setFlags (Flags.ofByte (s.readB f))))

/-- LDPS (R524). -/
def execLdps (src : Mem) (s : State) : Host.Outcome State Fault Refusal :=
  finish (s.privileged (.ldps src) (loadProgramStatus (s.ea src) s))

/-- MBIT (R530): S is the level of MI, Z is free. -/
def execMbit (s : State) : Host.Outcome State Fault Refusal :=
  let m := s.sampleMi
  finish (s.privileged .mbit (.ok ((m.2.setFlags { s.flags with s := m.1, z := m.2.freshBit 0 }).took 1)))

/-- MREQ (R531). -/
def execMreq (d : RegField) (s : State) : Host.Outcome State Fault Refusal :=
  finish (s.privileged (.mreq d) (.ok (multiRequest d s)))

/-- MRES (R532). -/
def execMres (s : State) : Host.Outcome State Fault Refusal :=
  finish (s.privileged .mres (.ok (s.setMoHigh true)))

/-- MSET (R533). -/
def execMset (s : State) : Host.Outcome State Fault Refusal :=
  finish (s.privileged .mset (.ok (s.setMoHigh false)))

end Sys2Proof.Machine
end

