-- ==== Sys2Proof/Machine/Extended.lean ====
section
/-! DEFINITION. Extended instructions (49_extended R550 to R559): the seven templates as the CPU sees them, and
the extended opcodes that match none. -/

namespace Sys2Proof.Machine

/-! ### Shared operations -/

/-- An address register is a pair in segmented mode (10_state R21, U3). -/
def epaPair (m : Mem) (s : State) : Exec Unit :=
  match m with
  | .ir r => require (!s.segmented || pairField r) .epaOddPair
  | _ => .ok ()

/-- `n` words from the EPU to memory (R552). -/
def epuToMemory : Nat → Address → State → Exec State
  | 0, _, s => .ok s
  | n + 1, a, s => do
    let t ← s.epuRead.2.writeWord a s.epuRead.1
    epuToMemory n (a.add 2#16) t

/-- `n` words from memory to the EPU (R553). -/
def memoryToEpu : Nat → Address → State → Exec State
  | 0, _, s => .ok s
  | n + 1, a, s => do
    let w ← s.readWord a
    memoryToEpu n (a.add 2#16) (s.epuWrite (.word w))

/-- `n` words from the EPU to registers, R0 after R15 (R554). -/
def epuToRegs : Nat → RegField → State → State
  | 0, _, s => s
  | n + 1, f, s => epuToRegs n (f + 1#4) (s.epuRead.2.writeW f s.epuRead.1)

/-- `n` words from registers to the EPU (R555). -/
def regsToEpu : Nat → RegField → State → State
  | 0, _, s => s
  | n + 1, f, s => regsToEpu n (f + 1#4) (s.epuWrite (.word (s.readW f)))

/-! ### Meanings -/

/-- EPA_STM (R552). -/
def execEpaStm (dst : Mem) (u1 : BitVec 2) (u2 : BitVec 12) (num : BitVec 4) (s : State) :
    Host.Outcome State Fault Refusal :=
  finish (s.extended (.epaStm dst u1 u2 num) do
    epaPair dst s
    epuToMemory (num.toNat + 1) (s.ea dst) s)

/-- EPA_LDM (R553). -/
def execEpaLdm (src : Mem) (u1 : BitVec 2) (u2 : BitVec 12) (num : BitVec 4) (s : State) :
    Host.Outcome State Fault Refusal :=
  finish (s.extended (.epaLdm src u1 u2 num) do
    epaPair src s
    memoryToEpu (num.toNat + 1) (s.ea src) s)

/-- EPA_LDR (R554). -/
def execEpaLdr (u1 : BitVec 3) (u2 : BitVec 2) (u3 : BitVec 4) (d : RegField) (u4 num : BitVec 4) (s : State) :
    Host.Outcome State Fault Refusal :=
  finish (s.extended (.epaLdr u1 u2 u3 d u4 num) (.ok (epuToRegs (num.toNat + 1) d s)))

/-- EPA_STR (R555). -/
def execEpaStr (u1 : BitVec 3) (u2 : BitVec 2) (u3 : BitVec 4) (f : RegField) (u4 num : BitVec 4) (s : State) :
    Host.Outcome State Fault Refusal :=
  finish (s.extended (.epaStr u1 u2 u3 f u4 num) (.ok (regsToEpu (num.toNat + 1) f s)))

/-- EPA_LDF (R556): the flags from the EPU's byte; R0 is free. -/
def execEpaLdf (u1 : BitVec 4) (u2 : BitVec 2) (u3 u4 : BitVec 4) (s : State) : Host.Outcome State Fault Refusal :=
  let e := s.epuRead
  finish (s.extended (.epaLdf u1 u2 u3 u4)
    (.ok (((e.2.setFlags (Flags.ofByte (e.1.extractLsb' 0 8))).writeW 0#4 (e.2.fresh 0 16)).took 1)))

/-- EPA_STF (R557). -/
def execEpaStf (u1 : BitVec 4) (u2 : BitVec 2) (u3 u4 : BitVec 4) (s : State) : Host.Outcome State Fault Refusal :=
  finish (s.extended (.epaStf u1 u2 u3 u4) (.ok (s.epuWrite (.flags s.flags.toByte))))

/-- EPA_OP (R558): no effect on the CPU. -/
def execEpaOp (u1 : BitVec 4) (u2 : BitVec 2) (w2 : Word) (s : State) : Host.Outcome State Fault Refusal :=
  finish (s.extended (.epaOp u1 u2 w2) (.ok s))

/-- An extended opcode of no template (R550, R551): with EPA = 0 the trap, with EPA = 1 undefined (U13). -/
def execEpaOther (w1 : Word) (w2 : EpaTail) (s : State) : Host.Outcome State Fault Refusal :=
  finish (s.extended (.epaOther w1 w2) (.error (.refused .epaNoTemplate)))

end Sys2Proof.Machine
end

