-- ==== Sys2Proof/Machine/InputOutput.lean ====
section
/-! DEFINITION. Input and output (47_io R460 to R482). All of it is privileged (R460). -/

namespace Sys2Proof.Machine

/-! ### Shared operations -/

/-- The port address (R461). -/
def State.portOf (s : State) : Port → Word
  | .da p => p
  | .ir r => s.readW r

/-- A single input (R470, R471): no flag is touched; a byte comes in the low byte of the answer (log 32). -/
def inputB (space : IoSpace) (d : RegField) (port : Word) (s : State) : State :=
  (s.ioRead space false port).2.writeB d ((s.ioRead space false port).1.extractLsb' 0 8)

def inputW (space : IoSpace) (d : RegField) (port : Word) (s : State) : State :=
  (s.ioRead space true port).2.writeW d (s.ioRead space true port).1

/-- A single output (R472, R473). -/
def outputB (space : IoSpace) (port : Word) (f : RegField) (s : State) : State :=
  s.ioWrite space false port ((s.readB f).setWidth 16)

def outputW (space : IoSpace) (port : Word) (f : RegField) (s : State) : State :=
  s.ioWrite space true port (s.readW f)

/-- One iteration of a block input (R474, R476): `f` is the port register, `d` the memory pointer; Z is free
(R462). -/
def inputStep {n : Nat} (rep : Bool) (space : IoSpace) (store : State → Address → BitVec n → Exec State) (k : Word)
    (f cnt d : RegField) (s : State) : Exec (State × Bool) := do
  require (separate [s.pointerFields d, [f], [cnt]]) .registerOverlap
  require (!rep || s.sparesOwnWords (s.pointer d) (n / 8)) .repeatOverwritesItself
  let io := s.ioRead space (n == 16) (s.readW f)
  let u ← store io.2 (s.pointer d) (io.1.setWidth n)
  let t := u.stepBlock [d] k cnt
  .ok ((t.setFlags { s.flags with z := t.freshBit 0, pv := t.counted cnt }).took 1, false)

/-- One iteration of a block output (R478, R480): `f` is the memory pointer, `d` the port register. -/
def outputStep {n : Nat} (space : IoSpace) (get : State → Address → Exec (BitVec n)) (k : Word)
    (f cnt d : RegField) (s : State) : Exec (State × Bool) := do
  require (separate [s.pointerFields f, [d], [cnt]]) .registerOverlap
  let v ← get s (s.pointer f)
  let t := (s.ioWrite space (n == 16) (s.readW d) (v.setWidth 16)).stepBlock [f] k cnt
  .ok ((t.setFlags { s.flags with z := t.freshBit 0, pv := t.counted cnt }).took 1, false)

/-! ### Meanings -/

/-- INB (R470). -/
def execInpb (d : RegField) (p : Port) (s : State) : Host.Outcome State Fault Refusal :=
  finish (s.privileged (.inpb d p) (.ok (inputB .standard d (s.portOf p) s)))

/-- IN (R470). -/
def execInp (d : RegField) (p : Port) (s : State) : Host.Outcome State Fault Refusal :=
  finish (s.privileged (.inp d p) (.ok (inputW .standard d (s.portOf p) s)))

/-- OUTB (R472). -/
def execOutb (p : Port) (f : RegField) (s : State) : Host.Outcome State Fault Refusal :=
  finish (s.privileged (.outb p f) (.ok (outputB .standard (s.portOf p) f s)))

/-- OUT (R472). -/
def execOut (p : Port) (f : RegField) (s : State) : Host.Outcome State Fault Refusal :=
  finish (s.privileged (.out p f) (.ok (outputW .standard (s.portOf p) f s)))

/-- SINB (R471). -/
def execSinb (d : RegField) (p : Word) (s : State) : Host.Outcome State Fault Refusal :=
  finish (s.privileged (.sinb d p) (.ok (inputB .special d p s)))

/-- SIN (R471). -/
def execSin (d : RegField) (p : Word) (s : State) : Host.Outcome State Fault Refusal :=
  finish (s.privileged (.sin d p) (.ok (inputW .special d p s)))

/-- SOUTB (R473). -/
def execSoutb (p : Word) (f : RegField) (s : State) : Host.Outcome State Fault Refusal :=
  finish (s.privileged (.soutb p f) (.ok (outputB .special p f s)))

/-- SOUT (R473). -/
def execSout (p : Word) (f : RegField) (s : State) : Host.Outcome State Fault Refusal :=
  finish (s.privileged (.sout p f) (.ok (outputW .special p f s)))

/-- INDB, IND (R474). -/
def execIndb (f cnt d : RegField) (s : State) : Host.Outcome State Fault Refusal :=
  finish (s.privileged (.indb f cnt d) (once (inputStep false .standard storeB (-1#16) f cnt d s)))

def execInd (f cnt d : RegField) (s : State) : Host.Outcome State Fault Refusal :=
  finish (s.privileged (.ind f cnt d) (once (inputStep false .standard storeW (-2#16) f cnt d s)))

/-- INDRB, INDR (R475). -/
def execIndrb (f cnt d : RegField) (s : State) : Host.Outcome State Fault Refusal :=
  finish (s.privileged (.indrb f cnt d) (repeated (inputStep true .standard storeB (-1#16) f cnt d s)))

def execIndr (f cnt d : RegField) (s : State) : Host.Outcome State Fault Refusal :=
  finish (s.privileged (.indr f cnt d) (repeated (inputStep true .standard storeW (-2#16) f cnt d s)))

/-- INIB, INI (R476). -/
def execInib (f cnt d : RegField) (s : State) : Host.Outcome State Fault Refusal :=
  finish (s.privileged (.inib f cnt d) (once (inputStep false .standard storeB 1#16 f cnt d s)))

def execIni (f cnt d : RegField) (s : State) : Host.Outcome State Fault Refusal :=
  finish (s.privileged (.ini f cnt d) (once (inputStep false .standard storeW 2#16 f cnt d s)))

/-- INIRB, INIR (R477). -/
def execInirb (f cnt d : RegField) (s : State) : Host.Outcome State Fault Refusal :=
  finish (s.privileged (.inirb f cnt d) (repeated (inputStep true .standard storeB 1#16 f cnt d s)))

def execInir (f cnt d : RegField) (s : State) : Host.Outcome State Fault Refusal :=
  finish (s.privileged (.inir f cnt d) (repeated (inputStep true .standard storeW 2#16 f cnt d s)))

/-- OUTDB, OUTD (R478). -/
def execOutdb (f cnt d : RegField) (s : State) : Host.Outcome State Fault Refusal :=
  finish (s.privileged (.outdb f cnt d) (once (outputStep .standard getB (-1#16) f cnt d s)))

def execOutd (f cnt d : RegField) (s : State) : Host.Outcome State Fault Refusal :=
  finish (s.privileged (.outd f cnt d) (once (outputStep .standard getW (-2#16) f cnt d s)))

/-- OTDRB, OTDR (R479). -/
def execOtdrb (f cnt d : RegField) (s : State) : Host.Outcome State Fault Refusal :=
  finish (s.privileged (.otdrb f cnt d) (repeated (outputStep .standard getB (-1#16) f cnt d s)))

def execOtdr (f cnt d : RegField) (s : State) : Host.Outcome State Fault Refusal :=
  finish (s.privileged (.otdr f cnt d) (repeated (outputStep .standard getW (-2#16) f cnt d s)))

/-- OUTIB, OUTI (R480). -/
def execOutib (f cnt d : RegField) (s : State) : Host.Outcome State Fault Refusal :=
  finish (s.privileged (.outib f cnt d) (once (outputStep .standard getB 1#16 f cnt d s)))

def execOuti (f cnt d : RegField) (s : State) : Host.Outcome State Fault Refusal :=
  finish (s.privileged (.outi f cnt d) (once (outputStep .standard getW 2#16 f cnt d s)))

/-- OTIRB, OTIR (R481). -/
def execOtirb (f cnt d : RegField) (s : State) : Host.Outcome State Fault Refusal :=
  finish (s.privileged (.otirb f cnt d) (repeated (outputStep .standard getB 1#16 f cnt d s)))

def execOtir (f cnt d : RegField) (s : State) : Host.Outcome State Fault Refusal :=
  finish (s.privileged (.otir f cnt d) (repeated (outputStep .standard getW 2#16 f cnt d s)))

/-- SINDB, SIND (R474). -/
def execSindb (f cnt d : RegField) (s : State) : Host.Outcome State Fault Refusal :=
  finish (s.privileged (.sindb f cnt d) (once (inputStep false .special storeB (-1#16) f cnt d s)))

def execSind (f cnt d : RegField) (s : State) : Host.Outcome State Fault Refusal :=
  finish (s.privileged (.sind f cnt d) (once (inputStep false .special storeW (-2#16) f cnt d s)))

/-- SINDRB, SINDR (R475). -/
def execSindrb (f cnt d : RegField) (s : State) : Host.Outcome State Fault Refusal :=
  finish (s.privileged (.sindrb f cnt d) (repeated (inputStep true .special storeB (-1#16) f cnt d s)))

def execSindr (f cnt d : RegField) (s : State) : Host.Outcome State Fault Refusal :=
  finish (s.privileged (.sindr f cnt d) (repeated (inputStep true .special storeW (-2#16) f cnt d s)))

/-- SINIB, SINI (R476). -/
def execSinib (f cnt d : RegField) (s : State) : Host.Outcome State Fault Refusal :=
  finish (s.privileged (.sinib f cnt d) (once (inputStep false .special storeB 1#16 f cnt d s)))

def execSini (f cnt d : RegField) (s : State) : Host.Outcome State Fault Refusal :=
  finish (s.privileged (.sini f cnt d) (once (inputStep false .special storeW 2#16 f cnt d s)))

/-- SINIRB, SINIR (R477). -/
def execSinirb (f cnt d : RegField) (s : State) : Host.Outcome State Fault Refusal :=
  finish (s.privileged (.sinirb f cnt d) (repeated (inputStep true .special storeB 1#16 f cnt d s)))

def execSinir (f cnt d : RegField) (s : State) : Host.Outcome State Fault Refusal :=
  finish (s.privileged (.sinir f cnt d) (repeated (inputStep true .special storeW 2#16 f cnt d s)))

/-- SOUTDB, SOUTD (R478). -/
def execSoutdb (f cnt d : RegField) (s : State) : Host.Outcome State Fault Refusal :=
  finish (s.privileged (.soutdb f cnt d) (once (outputStep .special getB (-1#16) f cnt d s)))

def execSoutd (f cnt d : RegField) (s : State) : Host.Outcome State Fault Refusal :=
  finish (s.privileged (.soutd f cnt d) (once (outputStep .special getW (-2#16) f cnt d s)))

/-- SOTDRB, SOTDR (R479). -/
def execSotdrb (f cnt d : RegField) (s : State) : Host.Outcome State Fault Refusal :=
  finish (s.privileged (.sotdrb f cnt d) (repeated (outputStep .special getB (-1#16) f cnt d s)))

def execSotdr (f cnt d : RegField) (s : State) : Host.Outcome State Fault Refusal :=
  finish (s.privileged (.sotdr f cnt d) (repeated (outputStep .special getW (-2#16) f cnt d s)))

/-- SOUTIB, SOUTI (R480). -/
def execSoutib (f cnt d : RegField) (s : State) : Host.Outcome State Fault Refusal :=
  finish (s.privileged (.soutib f cnt d) (once (outputStep .special getB 1#16 f cnt d s)))

def execSouti (f cnt d : RegField) (s : State) : Host.Outcome State Fault Refusal :=
  finish (s.privileged (.souti f cnt d) (once (outputStep .special getW 2#16 f cnt d s)))

/-- SOTIRB, SOTIR (R481). -/
def execSotirb (f cnt d : RegField) (s : State) : Host.Outcome State Fault Refusal :=
  finish (s.privileged (.sotirb f cnt d) (repeated (outputStep .special getB 1#16 f cnt d s)))

def execSotir (f cnt d : RegField) (s : State) : Host.Outcome State Fault Refusal :=
  finish (s.privileged (.sotir f cnt d) (repeated (outputStep .special getW 2#16 f cnt d s)))

end Sys2Proof.Machine
end

