-- ==== Sys2Proof/Machine/LoadExchange.lean ====
section
/-! DEFINITION. Load and Exchange (40_load_exchange R201 to R212). None of them affects a flag. -/

namespace Sys2Proof.Machine

/-! ### Shared operations -/

/-- A word or byte destination written without being read (R201, R205). -/
def storeImmB (m : Mem) (v : Byte) (s : State) : Exec State := .ok (s.writeByte (s.ea m) v)
def storeImmW (m : Mem) (v : Word) (s : State) : Exec State := s.writeWord (s.ea m) v

/-- An address as LDA and LDAR load it: the offset nonsegmented; segmented a pair whose reserved bits are
`hi` (bit 31) and `mid` (bits 23:16) (R206, R207, 10_state R25). -/
def loadAddress (d : RegField) (a : Address) (hi : BitVec 1) (mid : BitVec 8) (s : State) : State :=
  if s.segmented then s.writeL d (hi ++ a.seg ++ mid ++ a.off) else s.writeW d a.off

/-- LDM, registers from memory: `n` registers from field `f` on, words from `a` on (R209). -/
def loadMultiple : Nat → RegField → Address → State → Exec State
  | 0, _, _, s => .ok s
  | n + 1, f, a, s => do
    let v ← s.readWord a
    loadMultiple n (f + 1#4) (a.add 2#16) (s.writeW f v)

/-- LDM, memory from registers (R209). -/
def storeMultiple : Nat → RegField → Address → State → Exec State
  | 0, _, _, s => .ok s
  | n + 1, f, a, s => do
    let t ← s.writeWord a (s.readW f)
    storeMultiple n (f + 1#4) (a.add 2#16) t

/-- The operand field of a memory form names the stack pointer's own register (R211, R212). -/
def sameField (m : Mem) (sp : RegField) : Bool :=
  match m with
  | .ir r => r == sp
  | .da _ => false
  | .x _ i => i == sp

/-- The registers `fs` take free values (U4, log 21). -/
def freeWords : List RegField → State → State
  | [], s => s
  | f :: fs, s => freeWords fs ((s.writeW f (s.fresh 0 16)).took 1)

/-- POP, POPL with a register destination that overlaps the stack pointer (R211, U4): the registers of the
pointer take free values; a destination register outside it is loaded. -/
def popOverlap (sp : RegField) (load : State → State) (s : State) : State := freeWords (s.pointerFields sp) (load s)

/-! ### Meanings -/

def execClrb (d : RM) (s : State) : Host.Outcome State Fault Refusal := finish (s.putB d 0#8)

def execClr (d : RM) (s : State) : Host.Outcome State Fault Refusal := finish (s.putW d 0#16)

/-- EXB (R202): the effective address is taken before the exchange. -/
def execExb (d : RegField) (src : RM) (s : State) : Host.Outcome State Fault Refusal := finish do
  let v ← s.rmB src
  let t ← s.putB src (s.readB d)
  .ok (t.writeB d v)

def execEx (d : RegField) (src : RM) (s : State) : Host.Outcome State Fault Refusal := finish do
  let v ← s.rmW src
  let t ← s.putW src (s.readW d)
  .ok (t.writeW d v)

/-- LDB into a register (R203, R205). -/
def execLdbLoad (d : RegField) (src : LdSrc 8) (s : State) : Host.Outcome State Fault Refusal := finish do
  let v ← s.ldB src
  .ok (s.writeB d v)

/-- LDB into memory (R204). -/
def execLdbStore (dst : MemB) (f : RegField) (s : State) : Host.Outcome State Fault Refusal :=
  finish (.ok (s.writeByte (s.eaB dst) (s.readB f)))

/-- LDB of an immediate into memory (R205). -/
def execLdbStoreImm (dst : Mem) (v : BitVec 8) (s : State) : Host.Outcome State Fault Refusal :=
  finish (storeImmB dst v s)

/-- LDB of an immediate, one-word form (R205). -/
def execLdbShort (d : RegField) (v : BitVec 8) (s : State) : Host.Outcome State Fault Refusal :=
  finish (.ok (s.writeB d v))

def execLdLoad (d : RegField) (src : LdSrc 16) (s : State) : Host.Outcome State Fault Refusal := finish do
  let v ← s.ldW src
  .ok (s.writeW d v)

def execLdStore (dst : MemB) (f : RegField) (s : State) : Host.Outcome State Fault Refusal :=
  finish (s.writeWord (s.eaB dst) (s.readW f))

def execLdStoreImm (dst : Mem) (v : BitVec 16) (s : State) : Host.Outcome State Fault Refusal :=
  finish (storeImmW dst v s)

def execLdlLoad (d : RegField) (src : LdSrc 32) (s : State) : Host.Outcome State Fault Refusal := finish do
  let v ← s.ldL src
  .ok (s.writeL d v)

def execLdlStore (dst : MemB) (f : RegField) (s : State) : Host.Outcome State Fault Refusal :=
  finish (s.writeLong (s.eaB dst) (s.readL f))

/-- LDA (R206): the reserved bits of a segmented address are undefined. -/
def execLda (d : RegField) (src : EaSrc) (s : State) : Host.Outcome State Fault Refusal :=
  finish (.ok ((loadAddress d (s.eaSrc src) (s.fresh 0 1) (s.fresh 1 8) s).took 2))

/-- LDAR (R207): the reserved bits are 0. -/
def execLdar (d : RegField) (disp : Word) (s : State) : Host.Outcome State Fault Refusal :=
  finish (.ok (loadAddress d (s.eaRel disp) 0#1 0#8 s))

def execLdk (d : RegField) (v : BitVec 4) (s : State) : Host.Outcome State Fault Refusal :=
  finish (.ok (s.writeW d (v.setWidth 16)))

def execLdmLoad (d : RegField) (src : Mem) (num : BitVec 4) (s : State) : Host.Outcome State Fault Refusal :=
  finish (loadMultiple (num.toNat + 1) d (s.ea src) s)

def execLdmStore (dst : Mem) (f : RegField) (num : BitVec 4) (s : State) : Host.Outcome State Fault Refusal :=
  finish (storeMultiple (num.toNat + 1) f (s.ea dst) s)

def execLdrbLoad (d : RegField) (disp : Word) (s : State) : Host.Outcome State Fault Refusal :=
  finish (.ok (s.writeB d (s.readByte (s.eaRel disp))))

def execLdrbStore (disp : Word) (f : RegField) (s : State) : Host.Outcome State Fault Refusal :=
  finish (.ok (s.writeByte (s.eaRel disp) (s.readB f)))

def execLdrLoad (d : RegField) (disp : Word) (s : State) : Host.Outcome State Fault Refusal := finish do
  let v ← s.readWord (s.eaRel disp)
  .ok (s.writeW d v)

def execLdrStore (disp : Word) (f : RegField) (s : State) : Host.Outcome State Fault Refusal :=
  finish (s.writeWord (s.eaRel disp) (s.readW f))

def execLdrlLoad (d : RegField) (disp : Word) (s : State) : Host.Outcome State Fault Refusal := finish do
  let v ← s.readLong (s.eaRel disp)
  .ok (s.writeL d v)

def execLdrlStore (disp : Word) (f : RegField) (s : State) : Host.Outcome State Fault Refusal :=
  finish (s.writeLong (s.eaRel disp) (s.readL f))

/-- POP (R211): the destination's address is that of before the instruction. A destination in the stack
pointer's register, or the same field in both places, is U4 (log 21). -/
def execPop (dst : RM) (sp : RegField) (s : State) : Host.Outcome State Fault Refusal := finish do
  let v ← s.readWord (s.pointer sp)
  match dst with
  | .r f =>
    if overlap [f] (s.pointerFields sp) then .ok (popOverlap sp id s)
    else .ok ((s.stepPointer sp 2#16).writeW f v)
  | .mem m =>
    if sameField m sp then .ok (popOverlap sp id s)
    else (s.stepPointer sp 2#16).writeWord (s.ea m) v

/-- POPL (R211). -/
def execPopl (dst : RM) (sp : RegField) (s : State) : Host.Outcome State Fault Refusal := finish do
  let v ← s.readLong (s.pointer sp)
  match dst with
  | .r f =>
    if overlap [f, f + 1#4] (s.pointerFields sp) then .ok (popOverlap sp (fun t => t.writeL f v) s)
    else .ok ((s.stepPointer sp 4#16).writeL f v)
  | .mem m =>
    if sameField m sp then .ok (popOverlap sp id s)
    else (s.stepPointer sp 4#16).writeLong (s.ea m) v

/-- PUSH (R212): the source is read first. A source in the stack pointer's register stores a free value (U5,
log 22). -/
def execPush (sp : RegField) (src : Src 16) (s : State) : Host.Outcome State Fault Refusal := finish do
  let v ← s.srcW src
  match src with
  | .r f =>
    if overlap [f] (s.pointerFields sp) then (s.took 1).pushWord sp (s.fresh 0 16) else s.pushWord sp v
  | _ => s.pushWord sp v

/-- PUSHL (R212): the same register field in both places is U5 too. A pair of which the word stack pointer is the odd half
(`PUSHL @R5,RR4`) is pushed as read, before the decrement. -/
def execPushl (sp : RegField) (src : RM) (s : State) : Host.Outcome State Fault Refusal := finish do
  let v ← s.rmL src
  match src with
  | .r f =>
    if overlap [f] (s.pointerFields sp) then (s.took 1).pushLong sp (s.fresh 0 32) else s.pushLong sp v
  | .mem m => if sameField m sp then (s.took 1).pushLong sp (s.fresh 0 32) else s.pushLong sp v

end Sys2Proof.Machine
end

