-- ==== Sys2Proof/Machine/Logical.lean ====
section
/-! DEFINITION. Logical instructions (42_logical R300 to R305). -/

namespace Sys2Proof.Machine

def execAndb (d : RegField) (src : Src 8) (s : State) : Host.Outcome State Fault Refusal :=
  finish (s.twoOpB andAluB d src)

def execAnd (d : RegField) (src : Src 16) (s : State) : Host.Outcome State Fault Refusal :=
  finish (s.twoOpW andAlu d src)

def execOrb (d : RegField) (src : Src 8) (s : State) : Host.Outcome State Fault Refusal :=
  finish (s.twoOpB orAluB d src)

def execOr (d : RegField) (src : Src 16) (s : State) : Host.Outcome State Fault Refusal :=
  finish (s.twoOpW orAlu d src)

def execXorb (d : RegField) (src : Src 8) (s : State) : Host.Outcome State Fault Refusal :=
  finish (s.twoOpB xorAluB d src)

def execXor (d : RegField) (src : Src 16) (s : State) : Host.Outcome State Fault Refusal :=
  finish (s.twoOpW xorAlu d src)

def execComb (d : RM) (s : State) : Host.Outcome State Fault Refusal := finish (s.oneOpB comAluB d)

def execCom (d : RM) (s : State) : Host.Outcome State Fault Refusal := finish (s.oneOpW comAlu d)

/-- TESTB (R305): one read, no write; P is the parity. -/
def execTestb (d : RM) (s : State) : Host.Outcome State Fault Refusal := finish do
  let a ← s.rmB d
  .ok (s.setFlags (logicFlagsB a s.flags))

/-- TEST: P/V unaffected. -/
def execTest (d : RM) (s : State) : Host.Outcome State Fault Refusal := finish do
  let a ← s.rmW d
  .ok (s.setFlags (logicFlags a s.flags))

/-- TESTL: P/V undefined. -/
def execTestl (d : RM) (s : State) : Host.Outcome State Fault Refusal := finish do
  let a ← s.rmL d
  .ok ((s.setFlags { logicFlags a s.flags with pv := s.freshBit 0 }).took 1)

end Sys2Proof.Machine
end

