-- ==== Sys2Proof/Machine/ProgramControl.lean ====
section
/-! DEFINITION. Program control (43_program_control R321 to R328). -/

namespace Sys2Proof.Machine

/-! ### Shared operations -/

/-- The PC pushed on the processor stack: a word nonsegmented, a long word segmented (R321, R322). -/
def State.pushPc (s : State) : Exec State :=
  if s.segmented then s.pushLong s.stackField s.pcLong else s.pushWord s.stackField s.pcOff

/-- The PC popped from it (R327). -/
def State.popPc (s : State) : Exec State :=
  if s.segmented then do
    let (v, t) ← s.popLong s.stackField
    .ok (t.setPc (segOfWord (v.extractLsb' 16 16)) (v.extractLsb' 0 16))
  else do
    let (v, t) ← s.popWord s.stackField
    .ok (t.setPcOff v)

/-! ### Meanings -/

/-- CALL (R321): the target is computed before the push. -/
def execCall (dst : Mem) (s : State) : Host.Outcome State Fault Refusal := finish do
  let t ← s.pushPc
  .ok (t.jumpTo (s.ea dst))

/-- CALR (R322): the doubled signed displacement is subtracted. -/
def execCalr (disp : BitVec 12) (s : State) : Host.Outcome State Fault Refusal := finish do
  let t ← s.pushPc
  .ok (t.setPcOff (s.pcOff - (disp.signExtend 16 <<< 1)))

/-- DJNZ (R323): no flag is touched. -/
def execDjnz (r : RegField) (disp : BitVec 7) (s : State) : Host.Outcome State Fault Refusal :=
  let v := s.readW r - 1#16
  let t := s.writeW r v
  finish (.ok (if v = 0#16 then t else t.setPcOff (s.pcOff - (disp.setWidth 16 <<< 1))))

def execDbjnz (r : RegField) (disp : BitVec 7) (s : State) : Host.Outcome State Fault Refusal :=
  let v := s.readB r - 1#8
  let t := s.writeB r v
  finish (.ok (if v = 0#8 then t else t.setPcOff (s.pcOff - (disp.setWidth 16 <<< 1))))

/-- IRET (R324), privileged. -/
def execIret (s : State) : Host.Outcome State Fault Refusal := finish (s.privileged .iret s.trapReturn)

def execJp (cc : BitVec 4) (dst : Mem) (s : State) : Host.Outcome State Fault Refusal :=
  finish (.ok (if cond cc s.flags then s.jumpTo (s.ea dst) else s))

/-- JR (R326): the doubled signed displacement is added. -/
def execJr (cc : BitVec 4) (disp : BitVec 8) (s : State) : Host.Outcome State Fault Refusal :=
  finish (.ok (if cond cc s.flags then s.setPcOff (s.pcOff + (disp.signExtend 16 <<< 1)) else s))

def execRet (cc : BitVec 4) (s : State) : Host.Outcome State Fault Refusal :=
  finish (if cond cc s.flags then s.popPc else .ok s)

/-- SC (R328): the System Call trap, with the instruction word as identifier. -/
def execSc (v : BitVec 8) (s : State) : Host.Outcome State Fault Refusal :=
  finish (s.trapEntry .systemCall (0x7F#8 ++ v) s.pcSeg s.pcOff)

end Sys2Proof.Machine
end

