-- ==== Sys2Proof/Machine/RotateShift.lean ====
section
/-! DEFINITION. Rotates and shifts (45_rotate_shift R370 to R384). -/

namespace Sys2Proof.Machine

/-! ### Shared operations -/

/-- A rotate of a byte or word register (R373 to R376). -/
def rotateB (st : Step1 8) (d : RegField) (two : Bool) (s : State) : State :=
  let out := rotAlu s.cfg.shiftVPolicy st two (s.readB d) s.flags
  (s.writeB d out.1).setFlags out.2

def rotateW (st : Step1 16) (d : RegField) (two : Bool) (s : State) : State :=
  let out := rotAlu s.cfg.shiftVPolicy st two (s.readW d) s.flags
  (s.writeW d out.1).setFlags out.2

/-- RLDB and RRDB: `link` and `src` become the bytes given, Z is that of the link, S is free (R377, R378); one
register in both places takes a free value, as do Z and S (U12). -/
def rotateDigits (link src : RegField) (newLink newSrc : Byte) (s : State) : State :=
  let f := s.flags
  if link = src then
    ((s.writeB link (s.fresh 0 8)).setFlags { f with z := s.freshBit 1, s := s.freshBit 2 }).took 3
  else (((s.writeB link newLink).writeB src newSrc).setFlags { f with z := newLink == 0#8, s := s.freshBit 0 }).took 1

/-- The value and flags of a shift by the signed count `k` (R372, R379 to R384). Out of range everything is
free (U6, log 23); C is free for a zero count; V is free for the logical shifts. -/
def shiftResult {n : Nat} (arith : Bool) (k : Int) (v : BitVec n) (s : State) : BitVec n × Flags :=
  let f := s.flags
  if shiftInRange n k then
    let out := steps (shiftStep arith k) k.natAbs v f.c
    (out.1, { f.zs out.1 with
      c := if k = 0 then s.freshBit 0 else out.2.1
      pv := if arith then decide (0 < k) && stepsV s.cfg.shiftVPolicy (shiftStep arith k) k.natAbs v f.c
            else s.freshBit 1 })
  else
    (s.fresh 2 n, { f with c := s.freshBit 0, z := s.freshBit 3, s := s.freshBit 4, pv := s.freshBit 1 })

def shiftB (arith : Bool) (d : RegField) (k : Int) (s : State) : State :=
  let out := shiftResult arith k (s.readB d) s
  ((s.writeB d out.1).setFlags out.2).took 5

def shiftW (arith : Bool) (d : RegField) (k : Int) (s : State) : State :=
  let out := shiftResult arith k (s.readW d) s
  ((s.writeW d out.1).setFlags out.2).took 5

def shiftL (arith : Bool) (d : RegField) (k : Int) (s : State) : State :=
  let out := shiftResult arith k (s.readL d) s
  ((s.writeL d out.1).setFlags out.2).took 5

/-! ### Meanings -/

/-- RLB, RL (R373). -/
def execRlb (d : RegField) (two : Bool) (s : State) : Host.Outcome State Fault Refusal :=
  finish (.ok (rotateB rlStep d two s))

def execRl (d : RegField) (two : Bool) (s : State) : Host.Outcome State Fault Refusal :=
  finish (.ok (rotateW rlStep d two s))

/-- RLCB, RLC (R374). -/
def execRlcb (d : RegField) (two : Bool) (s : State) : Host.Outcome State Fault Refusal :=
  finish (.ok (rotateB rlcStep d two s))

def execRlc (d : RegField) (two : Bool) (s : State) : Host.Outcome State Fault Refusal :=
  finish (.ok (rotateW rlcStep d two s))

/-- RRB, RR (R375). -/
def execRrb (d : RegField) (two : Bool) (s : State) : Host.Outcome State Fault Refusal :=
  finish (.ok (rotateB rrStep d two s))

def execRr (d : RegField) (two : Bool) (s : State) : Host.Outcome State Fault Refusal :=
  finish (.ok (rotateW rrStep d two s))

/-- RRCB, RRC (R376). -/
def execRrcb (d : RegField) (two : Bool) (s : State) : Host.Outcome State Fault Refusal :=
  finish (.ok (rotateB rrcStep d two s))

def execRrc (d : RegField) (two : Bool) (s : State) : Host.Outcome State Fault Refusal :=
  finish (.ok (rotateW rrcStep d two s))

/-- RLDB (R377): source high digit to the link's low digit, source low digit up, link low digit in. -/
def execRldb (link src : RegField) (s : State) : Host.Outcome State Fault Refusal :=
  let a := s.readB link
  let b := s.readB src
  finish (.ok (rotateDigits link src (a.extractLsb' 4 4 ++ b.extractLsb' 4 4)
    (b.extractLsb' 0 4 ++ a.extractLsb' 0 4) s))

/-- RRDB (R378): source low digit to the link's low digit, source high digit down, link low digit in. -/
def execRrdb (link src : RegField) (s : State) : Host.Outcome State Fault Refusal :=
  let a := s.readB link
  let b := s.readB src
  finish (.ok (rotateDigits link src (a.extractLsb' 4 4 ++ b.extractLsb' 0 4)
    (a.extractLsb' 0 4 ++ b.extractLsb' 4 4) s))

/-- SDAB, SDA, SDAL (R379): the count is a signed word register, read before the shift. -/
def execSdab (d f : RegField) (s : State) : Host.Outcome State Fault Refusal :=
  finish (.ok (shiftB true d (s.readW f).toInt s))

def execSda (d f : RegField) (s : State) : Host.Outcome State Fault Refusal :=
  finish (.ok (shiftW true d (s.readW f).toInt s))

def execSdal (d f : RegField) (s : State) : Host.Outcome State Fault Refusal :=
  finish (.ok (shiftL true d (s.readW f).toInt s))

/-- SDLB, SDL, SDLL (R380): the count is a signed word register, read before the shift. -/
def execSdlb (d f : RegField) (s : State) : Host.Outcome State Fault Refusal :=
  finish (.ok (shiftB false d (s.readW f).toInt s))

def execSdl (d f : RegField) (s : State) : Host.Outcome State Fault Refusal :=
  finish (.ok (shiftW false d (s.readW f).toInt s))

def execSdll (d f : RegField) (s : State) : Host.Outcome State Fault Refusal :=
  finish (.ok (shiftL false d (s.readW f).toInt s))

/-- SLAB, SLA, SLAL (R381): the count is the signed count word. -/
def execSlab (d : RegField) (count : BitVec 8) (s : State) : Host.Outcome State Fault Refusal :=
  finish (.ok (shiftB true d count.toInt s))

def execSla (d : RegField) (count : BitVec 16) (s : State) : Host.Outcome State Fault Refusal :=
  finish (.ok (shiftW true d count.toInt s))

def execSlal (d : RegField) (count : BitVec 16) (s : State) : Host.Outcome State Fault Refusal :=
  finish (.ok (shiftL true d count.toInt s))

/-- SLLB, SLL, SLLL (R382): the count is the signed count word. -/
def execSllb (d : RegField) (count : BitVec 8) (s : State) : Host.Outcome State Fault Refusal :=
  finish (.ok (shiftB false d count.toInt s))

def execSll (d : RegField) (count : BitVec 16) (s : State) : Host.Outcome State Fault Refusal :=
  finish (.ok (shiftW false d count.toInt s))

def execSlll (d : RegField) (count : BitVec 16) (s : State) : Host.Outcome State Fault Refusal :=
  finish (.ok (shiftL false d count.toInt s))

/-- SRAB, SRA, SRAL (R383): the count is the signed count word. -/
def execSrab (d : RegField) (count : BitVec 8) (s : State) : Host.Outcome State Fault Refusal :=
  finish (.ok (shiftB true d count.toInt s))

def execSra (d : RegField) (count : BitVec 16) (s : State) : Host.Outcome State Fault Refusal :=
  finish (.ok (shiftW true d count.toInt s))

def execSral (d : RegField) (count : BitVec 16) (s : State) : Host.Outcome State Fault Refusal :=
  finish (.ok (shiftL true d count.toInt s))

/-- SRLB, SRL, SRLL (R384): the count is the signed count word. -/
def execSrlb (d : RegField) (count : BitVec 8) (s : State) : Host.Outcome State Fault Refusal :=
  finish (.ok (shiftB false d count.toInt s))

def execSrl (d : RegField) (count : BitVec 16) (s : State) : Host.Outcome State Fault Refusal :=
  finish (.ok (shiftW false d count.toInt s))

def execSrll (d : RegField) (count : BitVec 16) (s : State) : Host.Outcome State Fault Refusal :=
  finish (.ok (shiftL false d count.toInt s))

end Sys2Proof.Machine
end

