-- ==== Sys2Proof/Machine/Dispatch.lean ====
section
/-! DEFINITION. The meaning of each instruction, one arm per constructor. -/

namespace Sys2Proof.Machine

def exec (i : Instr) (s : State) : Host.Outcome State Fault Refusal :=
  match i with
  | .clrb d => Sys2Proof.Machine.execClrb d s
  | .clr d => Sys2Proof.Machine.execClr d s
  | .exb d src => Sys2Proof.Machine.execExb d src s
  | .ex d src => Sys2Proof.Machine.execEx d src s
  | .ldbLoad d src => Sys2Proof.Machine.execLdbLoad d src s
  | .ldbStore dst f => Sys2Proof.Machine.execLdbStore dst f s
  | .ldbStoreImm dst v => Sys2Proof.Machine.execLdbStoreImm dst v s
  | .ldbShort d v => Sys2Proof.Machine.execLdbShort d v s
  | .ldLoad d src => Sys2Proof.Machine.execLdLoad d src s
  | .ldStore dst f => Sys2Proof.Machine.execLdStore dst f s
  | .ldStoreImm dst v => Sys2Proof.Machine.execLdStoreImm dst v s
  | .ldlLoad d src => Sys2Proof.Machine.execLdlLoad d src s
  | .ldlStore dst f => Sys2Proof.Machine.execLdlStore dst f s
  | .lda d src => Sys2Proof.Machine.execLda d src s
  | .ldar d disp => Sys2Proof.Machine.execLdar d disp s
  | .ldk d v => Sys2Proof.Machine.execLdk d v s
  | .ldmLoad d src num => Sys2Proof.Machine.execLdmLoad d src num s
  | .ldmStore dst f num => Sys2Proof.Machine.execLdmStore dst f num s
  | .ldrbLoad d disp => Sys2Proof.Machine.execLdrbLoad d disp s
  | .ldrbStore disp f => Sys2Proof.Machine.execLdrbStore disp f s
  | .ldrLoad d disp => Sys2Proof.Machine.execLdrLoad d disp s
  | .ldrStore disp f => Sys2Proof.Machine.execLdrStore disp f s
  | .ldrlLoad d disp => Sys2Proof.Machine.execLdrlLoad d disp s
  | .ldrlStore disp f => Sys2Proof.Machine.execLdrlStore disp f s
  | .pop dst sp => Sys2Proof.Machine.execPop dst sp s
  | .popl dst sp => Sys2Proof.Machine.execPopl dst sp s
  | .push sp src => Sys2Proof.Machine.execPush sp src s
  | .pushl sp src => Sys2Proof.Machine.execPushl sp src s
  | .adcb d f => Sys2Proof.Machine.execAdcb d f s
  | .adc d f => Sys2Proof.Machine.execAdc d f s
  | .addb d src => Sys2Proof.Machine.execAddb d src s
  | .add d src => Sys2Proof.Machine.execAdd d src s
  | .addl d src => Sys2Proof.Machine.execAddl d src s
  | .sbcb d f => Sys2Proof.Machine.execSbcb d f s
  | .sbc d f => Sys2Proof.Machine.execSbc d f s
  | .subb d src => Sys2Proof.Machine.execSubb d src s
  | .sub d src => Sys2Proof.Machine.execSub d src s
  | .subl d src => Sys2Proof.Machine.execSubl d src s
  | .cpb d src => Sys2Proof.Machine.execCpb d src s
  | .cp d src => Sys2Proof.Machine.execCp d src s
  | .cpl d src => Sys2Proof.Machine.execCpl d src s
  | .cpbMemImm dst v => Sys2Proof.Machine.execCpbMemImm dst v s
  | .cpMemImm dst v => Sys2Proof.Machine.execCpMemImm dst v s
  | .incb d num => Sys2Proof.Machine.execIncb d num s
  | .inc d num => Sys2Proof.Machine.execInc d num s
  | .decb d num => Sys2Proof.Machine.execDecb d num s
  | .dec d num => Sys2Proof.Machine.execDec d num s
  | .negb d => Sys2Proof.Machine.execNegb d s
  | .neg d => Sys2Proof.Machine.execNeg d s
  | .dab d => Sys2Proof.Machine.execDab d s
  | .extsb d => Sys2Proof.Machine.execExtsb d s
  | .exts d => Sys2Proof.Machine.execExts d s
  | .extsl d => Sys2Proof.Machine.execExtsl d s
  | .mult d src => Sys2Proof.Machine.execMult d src s
  | .multl d src => Sys2Proof.Machine.execMultl d src s
  | .div d src => Sys2Proof.Machine.execDiv d src s
  | .divl d src => Sys2Proof.Machine.execDivl d src s
  | .andb d src => Sys2Proof.Machine.execAndb d src s
  | .and d src => Sys2Proof.Machine.execAnd d src s
  | .orb d src => Sys2Proof.Machine.execOrb d src s
  | .or d src => Sys2Proof.Machine.execOr d src s
  | .xorb d src => Sys2Proof.Machine.execXorb d src s
  | .xor d src => Sys2Proof.Machine.execXor d src s
  | .comb d => Sys2Proof.Machine.execComb d s
  | .com d => Sys2Proof.Machine.execCom d s
  | .testb d => Sys2Proof.Machine.execTestb d s
  | .test d => Sys2Proof.Machine.execTest d s
  | .testl d => Sys2Proof.Machine.execTestl d s
  | .call dst => Sys2Proof.Machine.execCall dst s
  | .calr disp => Sys2Proof.Machine.execCalr disp s
  | .djnz r disp => Sys2Proof.Machine.execDjnz r disp s
  | .dbjnz r disp => Sys2Proof.Machine.execDbjnz r disp s
  | .iret => Sys2Proof.Machine.execIret s
  | .jp cc dst => Sys2Proof.Machine.execJp cc dst s
  | .jr cc disp => Sys2Proof.Machine.execJr cc disp s
  | .ret cc => Sys2Proof.Machine.execRet cc s
  | .sc v => Sys2Proof.Machine.execSc v s
  | .bitb d num => Sys2Proof.Machine.execBitb d num s
  | .bit d num => Sys2Proof.Machine.execBit d num s
  | .bitbDyn d f => Sys2Proof.Machine.execBitbDyn d f s
  | .bitDyn d f => Sys2Proof.Machine.execBitDyn d f s
  | .resb d num => Sys2Proof.Machine.execResb d num s
  | .res d num => Sys2Proof.Machine.execRes d num s
  | .resbDyn d f => Sys2Proof.Machine.execResbDyn d f s
  | .resDyn d f => Sys2Proof.Machine.execResDyn d f s
  | .setb d num => Sys2Proof.Machine.execSetb d num s
  | .set d num => Sys2Proof.Machine.execSet d num s
  | .setbDyn d f => Sys2Proof.Machine.execSetbDyn d f s
  | .setDyn d f => Sys2Proof.Machine.execSetDyn d f s
  | .tccb cc d => Sys2Proof.Machine.execTccb cc d s
  | .tcc cc d => Sys2Proof.Machine.execTcc cc d s
  | .tsetb d => Sys2Proof.Machine.execTsetb d s
  | .tset d => Sys2Proof.Machine.execTset d s
  | .rlb d two => Sys2Proof.Machine.execRlb d two s
  | .rl d two => Sys2Proof.Machine.execRl d two s
  | .rlcb d two => Sys2Proof.Machine.execRlcb d two s
  | .rlc d two => Sys2Proof.Machine.execRlc d two s
  | .rrb d two => Sys2Proof.Machine.execRrb d two s
  | .rr d two => Sys2Proof.Machine.execRr d two s
  | .rrcb d two => Sys2Proof.Machine.execRrcb d two s
  | .rrc d two => Sys2Proof.Machine.execRrc d two s
  | .rldb link src => Sys2Proof.Machine.execRldb link src s
  | .rrdb link src => Sys2Proof.Machine.execRrdb link src s
  | .sdab d f => Sys2Proof.Machine.execSdab d f s
  | .sda d f => Sys2Proof.Machine.execSda d f s
  | .sdal d f => Sys2Proof.Machine.execSdal d f s
  | .sdlb d f => Sys2Proof.Machine.execSdlb d f s
  | .sdl d f => Sys2Proof.Machine.execSdl d f s
  | .sdll d f => Sys2Proof.Machine.execSdll d f s
  | .slab d count => Sys2Proof.Machine.execSlab d count s
  | .sla d count => Sys2Proof.Machine.execSla d count s
  | .slal d count => Sys2Proof.Machine.execSlal d count s
  | .sllb d count => Sys2Proof.Machine.execSllb d count s
  | .sll d count => Sys2Proof.Machine.execSll d count s
  | .slll d count => Sys2Proof.Machine.execSlll d count s
  | .srab d count => Sys2Proof.Machine.execSrab d count s
  | .sra d count => Sys2Proof.Machine.execSra d count s
  | .sral d count => Sys2Proof.Machine.execSral d count s
  | .srlb d count => Sys2Proof.Machine.execSrlb d count s
  | .srl d count => Sys2Proof.Machine.execSrl d count s
  | .srll d count => Sys2Proof.Machine.execSrll d count s
  | .cpdb f cnt d cc => Sys2Proof.Machine.execCpdb f cnt d cc s
  | .cpd f cnt d cc => Sys2Proof.Machine.execCpd f cnt d cc s
  | .cpdrb f cnt d cc => Sys2Proof.Machine.execCpdrb f cnt d cc s
  | .cpdr f cnt d cc => Sys2Proof.Machine.execCpdr f cnt d cc s
  | .cpib f cnt d cc => Sys2Proof.Machine.execCpib f cnt d cc s
  | .cpi f cnt d cc => Sys2Proof.Machine.execCpi f cnt d cc s
  | .cpirb f cnt d cc => Sys2Proof.Machine.execCpirb f cnt d cc s
  | .cpir f cnt d cc => Sys2Proof.Machine.execCpir f cnt d cc s
  | .cpsdb f cnt d cc => Sys2Proof.Machine.execCpsdb f cnt d cc s
  | .cpsd f cnt d cc => Sys2Proof.Machine.execCpsd f cnt d cc s
  | .cpsdrb f cnt d cc => Sys2Proof.Machine.execCpsdrb f cnt d cc s
  | .cpsdr f cnt d cc => Sys2Proof.Machine.execCpsdr f cnt d cc s
  | .cpsib f cnt d cc => Sys2Proof.Machine.execCpsib f cnt d cc s
  | .cpsi f cnt d cc => Sys2Proof.Machine.execCpsi f cnt d cc s
  | .cpsirb f cnt d cc => Sys2Proof.Machine.execCpsirb f cnt d cc s
  | .cpsir f cnt d cc => Sys2Proof.Machine.execCpsir f cnt d cc s
  | .lddb f cnt d => Sys2Proof.Machine.execLddb f cnt d s
  | .ldd f cnt d => Sys2Proof.Machine.execLdd f cnt d s
  | .lddrb f cnt d => Sys2Proof.Machine.execLddrb f cnt d s
  | .lddr f cnt d => Sys2Proof.Machine.execLddr f cnt d s
  | .ldib f cnt d => Sys2Proof.Machine.execLdib f cnt d s
  | .ldi f cnt d => Sys2Proof.Machine.execLdi f cnt d s
  | .ldirb f cnt d => Sys2Proof.Machine.execLdirb f cnt d s
  | .ldir f cnt d => Sys2Proof.Machine.execLdir f cnt d s
  | .trdb d cnt f => Sys2Proof.Machine.execTrdb d cnt f s
  | .trdrb d cnt f => Sys2Proof.Machine.execTrdrb d cnt f s
  | .trib d cnt f => Sys2Proof.Machine.execTrib d cnt f s
  | .trirb d cnt f => Sys2Proof.Machine.execTrirb d cnt f s
  | .trtdb d cnt f => Sys2Proof.Machine.execTrtdb d cnt f s
  | .trtdrb d cnt f => Sys2Proof.Machine.execTrtdrb d cnt f s
  | .trtib d cnt f => Sys2Proof.Machine.execTrtib d cnt f s
  | .trtirb d cnt f => Sys2Proof.Machine.execTrtirb d cnt f s
  | .inpb d p => Sys2Proof.Machine.execInpb d p s
  | .inp d p => Sys2Proof.Machine.execInp d p s
  | .outb p f => Sys2Proof.Machine.execOutb p f s
  | .out p f => Sys2Proof.Machine.execOut p f s
  | .sinb d p => Sys2Proof.Machine.execSinb d p s
  | .sin d p => Sys2Proof.Machine.execSin d p s
  | .soutb p f => Sys2Proof.Machine.execSoutb p f s
  | .sout p f => Sys2Proof.Machine.execSout p f s
  | .indb f cnt d => Sys2Proof.Machine.execIndb f cnt d s
  | .ind f cnt d => Sys2Proof.Machine.execInd f cnt d s
  | .indrb f cnt d => Sys2Proof.Machine.execIndrb f cnt d s
  | .indr f cnt d => Sys2Proof.Machine.execIndr f cnt d s
  | .inib f cnt d => Sys2Proof.Machine.execInib f cnt d s
  | .ini f cnt d => Sys2Proof.Machine.execIni f cnt d s
  | .inirb f cnt d => Sys2Proof.Machine.execInirb f cnt d s
  | .inir f cnt d => Sys2Proof.Machine.execInir f cnt d s
  | .outdb f cnt d => Sys2Proof.Machine.execOutdb f cnt d s
  | .outd f cnt d => Sys2Proof.Machine.execOutd f cnt d s
  | .otdrb f cnt d => Sys2Proof.Machine.execOtdrb f cnt d s
  | .otdr f cnt d => Sys2Proof.Machine.execOtdr f cnt d s
  | .outib f cnt d => Sys2Proof.Machine.execOutib f cnt d s
  | .outi f cnt d => Sys2Proof.Machine.execOuti f cnt d s
  | .otirb f cnt d => Sys2Proof.Machine.execOtirb f cnt d s
  | .otir f cnt d => Sys2Proof.Machine.execOtir f cnt d s
  | .sindb f cnt d => Sys2Proof.Machine.execSindb f cnt d s
  | .sind f cnt d => Sys2Proof.Machine.execSind f cnt d s
  | .sindrb f cnt d => Sys2Proof.Machine.execSindrb f cnt d s
  | .sindr f cnt d => Sys2Proof.Machine.execSindr f cnt d s
  | .sinib f cnt d => Sys2Proof.Machine.execSinib f cnt d s
  | .sini f cnt d => Sys2Proof.Machine.execSini f cnt d s
  | .sinirb f cnt d => Sys2Proof.Machine.execSinirb f cnt d s
  | .sinir f cnt d => Sys2Proof.Machine.execSinir f cnt d s
  | .soutdb f cnt d => Sys2Proof.Machine.execSoutdb f cnt d s
  | .soutd f cnt d => Sys2Proof.Machine.execSoutd f cnt d s
  | .sotdrb f cnt d => Sys2Proof.Machine.execSotdrb f cnt d s
  | .sotdr f cnt d => Sys2Proof.Machine.execSotdr f cnt d s
  | .soutib f cnt d => Sys2Proof.Machine.execSoutib f cnt d s
  | .souti f cnt d => Sys2Proof.Machine.execSouti f cnt d s
  | .sotirb f cnt d => Sys2Proof.Machine.execSotirb f cnt d s
  | .sotir f cnt d => Sys2Proof.Machine.execSotir f cnt d s
  | .comflg mask => Sys2Proof.Machine.execComflg mask s
  | .resflg mask => Sys2Proof.Machine.execResflg mask s
  | .setflg mask => Sys2Proof.Machine.execSetflg mask s
  | .nop => Sys2Proof.Machine.execNop s
  | .di vn => Sys2Proof.Machine.execDi vn s
  | .ei vn => Sys2Proof.Machine.execEi vn s
  | .halt => Sys2Proof.Machine.execHalt s
  | .ldctlRead d c => Sys2Proof.Machine.execLdctlRead d c s
  | .ldctlWrite c f => Sys2Proof.Machine.execLdctlWrite c f s
  | .ldctlbRead d => Sys2Proof.Machine.execLdctlbRead d s
  | .ldctlbWrite f => Sys2Proof.Machine.execLdctlbWrite f s
  | .ldps src => Sys2Proof.Machine.execLdps src s
  | .mbit => Sys2Proof.Machine.execMbit s
  | .mreq d => Sys2Proof.Machine.execMreq d s
  | .mres => Sys2Proof.Machine.execMres s
  | .mset => Sys2Proof.Machine.execMset s
  | .epaStm dst u1 u2 num => Sys2Proof.Machine.execEpaStm dst u1 u2 num s
  | .epaLdm src u1 u2 num => Sys2Proof.Machine.execEpaLdm src u1 u2 num s
  | .epaLdr u1 u2 u3 d u4 num => Sys2Proof.Machine.execEpaLdr u1 u2 u3 d u4 num s
  | .epaStr u1 u2 u3 f u4 num => Sys2Proof.Machine.execEpaStr u1 u2 u3 f u4 num s
  | .epaLdf u1 u2 u3 u4 => Sys2Proof.Machine.execEpaLdf u1 u2 u3 u4 s
  | .epaStf u1 u2 u3 u4 => Sys2Proof.Machine.execEpaStf u1 u2 u3 u4 s
  | .epaOp u1 u2 w2 => Sys2Proof.Machine.execEpaOp u1 u2 w2 s
  | .epaOther w1 w2 => Sys2Proof.Machine.execEpaOther w1 w2 s

end Sys2Proof.Machine
end

