-- ==== Sys2Proof/Machine/Step.lean ====
section
/-! DEFINITION. One step of the machine: one instruction, one iteration of a repeat instruction, one trap or
interrupt entry, or one period of a halt. -/

namespace Sys2Proof.Machine

/-- Fetch, decode and execute the instruction at the PC (10_state R31). -/
def runInstr (s : State) : Host.Outcome State Fault Refusal :=
  match s.fetch with
  | .error e => finish (.error e)
  | .ok ws =>
    match decodeWords s.segmented ws with
    | .error r => .refused (.reserved r)
    | .ok (i, _) =>
      if s.reservedPort i then .refused (.reserved .illFormedOperands) else exec i (s.advance (lengthWords i))

/-- One step (60_exceptions R630). -/
def step (s : State) : Host.Outcome State Fault Refusal :=
  let t := s.latch
  match t.boundaryEvent with
  | .reset => .next t.resetEvent
  | .nmi => finish t.takeNmi
  | .segmentTrap => finish t.takeSegmentTrap
  | .vi => finish t.takeVi
  | .nvi => finish t.takeNvi
  | .halted => .next t
  | .run => runInstr t

/-- The state with an instruction, given by its bits as opcode_table.json numbers them, stored where `step`
fetches. -/
def State.withFetchWord (s : State) (nbits w : Nat) : State := s.storeWords s.pcAddr (tableWords nbits w)

end Sys2Proof.Machine
end

