-- ==== Sys2Proof/Safety.lean ====
section
/-! DEFINITION. The terms in which claims about the machine are stated: the invariant, what an instruction
leaves unchanged, and results written from the rules as arithmetic. -/

namespace Sys2Proof.Machine

/-! ### The invariant -/

/-- The memory is in its canonical form, and a Z8002 has none of the Z8001's state: no SEG bit (10_state R40),
no segment number in PC or PSAP (R30, R47), no segment-trap request (60_exceptions R606). -/
def State.Inv (s : State) : Prop :=
  s.mem.wf = true ∧
  (s.cfg.variant = .z8002 → s.fcw.seg = false ∧ s.pcSeg = 0#7 ∧ s.psapSeg = 0#7 ∧ s.segtrapRequest = false)

/-! ### What an instruction leaves unchanged -/

/-- The state with registers, PC, FCW, memory and the counter of free values blanked: the special registers,
the pins, the latches, the parameters and the environment. -/
def State.others (s : State) : State :=
  { s with regs := Vector.replicate 18 0#16, pcSeg := 0#7, pcOff := 0#16, fcw := Fcw.ofWord .z8002 0#16,
           freeCount := 0, mem := [] }

/-- From `s` to `t` nothing changes but the registers of `slots`, the bytes of `keys`, flags and PC. -/
structure Frame (s t : State) (slots : List (Fin 18)) (keys : List Nat) : Prop where
  regs : ∀ i, i ∉ slots → t.regs.get i = s.regs.get i
  mem : ∀ k, k ∉ keys → t.mem.read k = s.mem.read k
  control : { t.fcw with flags := s.fcw.flags } = s.fcw
  others : t.others = s.others

/-- `i` answers a next state at `s`; measured from `base` it keeps to the frame, and `post` holds of it. -/
def RunsFrom (i : Instr) (s base : State) (slots : List (Fin 18)) (keys : List Nat) (post : State → Prop) : Prop :=
  ∃ t, exec i s = .next t ∧ Frame base t slots keys ∧ post t

/-- The same, measured from `s`, with the PC at the next instruction in sequence. -/
def Runs (i : Instr) (s : State) (slots : List (Fin 18)) (keys : List Nat) (post : State → Prop) : Prop :=
  RunsFrom i s s slots keys fun t => t.pcSeg = s.pcSeg ∧ t.pcOff = s.pcOff ∧ post t

/-- The register that holds byte register `f`. -/
def State.slotB (s : State) (f : RegField) : Fin 18 := s.slot (byteHome f)

/-- The registers of a pair and of a quadruple. -/
def State.slotsL (s : State) (f : RegField) : List (Fin 18) := [s.slot f, s.slot (f + 1#4)]
def State.slotsQ (s : State) (f : RegField) : List (Fin 18) := s.slotsL f ++ s.slotsL (f + 2#4)

/-- The keys of the `n` bytes from `a` on. -/
def Address.bytes (a : Address) (n : Nat) : List Nat := (List.range n).map a.keyAt

/-- The registers and the bytes that writing a destination operand may change. -/
def State.rmSlotsB (s : State) : RM → List (Fin 18)
  | .r f => [s.slotB f]
  | .mem _ => []
def State.rmSlotsW (s : State) : RM → List (Fin 18)
  | .r f => [s.slot f]
  | .mem _ => []
def State.rmBytes (s : State) (n : Nat) : RM → List Nat
  | .r _ => []
  | .mem m => (s.ea m).bytes n

/-- A byte destination in a register leaves the other byte of its word register (10_state R21). -/
def KeepsOther (s t : State) (x : RM) : Prop := ∀ f, x = .r f → t.readB (f ^^^ 8#4) = s.readB (f ^^^ 8#4)

/-! ### Results as arithmetic (41_arithmetic R250 and the flag lines of the instruction rules) -/

/-- An integer is not an `n`-bit signed number. -/
def outOfRange (n : Nat) (x : Int) : Bool := decide (x < -(2 ^ (n - 1) : Int) ∨ (2 ^ (n - 1) : Int) ≤ x)

/-- The sum and the difference with a carry or borrow, modulo `2^n`. -/
def sumOf {n : Nat} (a b : BitVec n) (c : Bool) : BitVec n := BitVec.ofNat n (a.toNat + b.toNat + c.toNat)
def diffOf {n : Nat} (a b : BitVec n) (c : Bool) : BitVec n :=
  BitVec.ofInt n ((a.toNat : Int) - (b.toNat : Int) - (c.toNat : Int))

/-- C, Z, S, V of a sum: the carry out of bit `n-1`, and the signed sum out of range. -/
def sumFlags {n : Nat} (a b : BitVec n) (c : Bool) (f : Flags) : Flags :=
  { f with c := decide (2 ^ n ≤ a.toNat + b.toNat + c.toNat), z := decide (sumOf a b c = 0), s := (sumOf a b c).msb,
           pv := outOfRange n (a.toInt + b.toInt + c.toNat) }

/-- C, Z, S, V of a difference: the borrow, and the signed difference out of range. -/
def diffFlags {n : Nat} (a b : BitVec n) (c : Bool) (f : Flags) : Flags :=
  { f with c := decide (a.toNat < b.toNat + c.toNat), z := decide (diffOf a b c = 0), s := (diffOf a b c).msb,
           pv := outOfRange n (a.toInt - b.toInt - c.toNat) }

/-- Z and S of a result. -/
def signFlags {n : Nat} (r : BitVec n) (f : Flags) : Flags := { f with z := decide (r = 0), s := r.msb }

/-- A byte has an even number of ones (10_state R35). -/
def evenOnes (b : Byte) : Bool := decide ((List.range 8).countP (fun j => b.getLsbD j) % 2 = 0)

/-- The value of a byte of two BCD digits, and whether it is one. -/
def bcdValue (b : Byte) : Nat := 10 * (b.toNat / 16) + b.toNat % 16
def isBcd (b : Byte) : Bool := decide (b.toNat / 16 ≤ 9 ∧ b.toNat % 16 ≤ 9)

/-- The result of a shift by the signed count `k` (45_rotate_shift R370, R372). -/
def shifted {n : Nat} (arith : Bool) (k : Int) (v : BitVec n) : BitVec n :=
  if 0 ≤ k then v <<< k.toNat else if arith then v.sshiftRight k.natAbs else v >>> k.natAbs

/-- What a shift of `v` to `r` leaves in the flags: the last bit shifted out, zero, sign; V of an arithmetic left
shift by the policy (R371), 0 for a right shift; the rest is not stated. -/
def ShiftFlags {n : Nat} (arith : Bool) (k : Int) (v : BitVec n) (s t : State) : Prop :=
  let r := shifted arith k v
  t.flags.z = decide (r = 0) ∧ t.flags.s = r.msb ∧ t.flags.d = s.flags.d ∧ t.flags.h = s.flags.h ∧
  (0 < k → t.flags.c = v.getLsbD (n - k.toNat)) ∧ (k < 0 → t.flags.c = v.getLsbD (k.natAbs - 1)) ∧
  (arith = true → k ≤ 0 → t.flags.pv = false) ∧
  (arith = true → 0 < k → s.cfg.shiftVPolicy = .anyStep → t.flags.pv = outOfRange n (v.toInt * 2 ^ k.toNat)) ∧
  (arith = true → 0 < k → s.cfg.shiftVPolicy = .endpoints → t.flags.pv = (r.msb != v.msb))

/-- The result of one rotate step, and the carry after it, as rotates of the value or of carry and value. -/
inductive Turn where
  | left
  | right
  | leftCarry
  | rightCarry
  deriving DecidableEq, Repr

def Turn.apply {n : Nat} (x : Turn) (k : Nat) (v : BitVec n) (c : Bool) : BitVec n × Bool :=
  match x with
  | .left => (v.rotateLeft k, (v.rotateLeft k).getLsbD 0)
  | .right => (v.rotateRight k, (v.rotateRight k).msb)
  | .leftCarry =>
    (((BitVec.ofBool c ++ v).rotateLeft k).setWidth n, ((BitVec.ofBool c ++ v).rotateLeft k).msb)
  | .rightCarry =>
    (((BitVec.ofBool c ++ v).rotateRight k).setWidth n, ((BitVec.ofBool c ++ v).rotateRight k).msb)

/-- V of a rotate by one or two positions (R371). -/
def Turn.v {n : Nat} (x : Turn) (pol : ShiftVPolicy) (two : Bool) (v : BitVec n) (c : Bool) : Bool :=
  let one := (x.apply 1 v c).1
  let last := (x.apply (if two then 2 else 1) v c).1
  match pol with
  | .anyStep => one.msb != v.msb || last.msb != one.msb
  | .endpoints => last.msb != v.msb

/-- What one iteration does to its pointers and its counter (46_block_string R410). -/
def Stepped (s t : State) (ptrs : List RegField) (k : Word) (cnt : RegField) : Prop :=
  (∀ p ∈ ptrs, t.pointer p = (s.pointer p).add k) ∧ t.readW cnt = s.readW cnt - 1#16 ∧
  t.flags.pv = decide (s.readW cnt = 1#16)

/-- The registers it may change: the offset of each pointer and the counter. -/
def State.blockSlots (s : State) (ptrs : List RegField) (cnt : RegField) : List (Fin 18) :=
  ptrs.map (fun p => s.slot (s.offField p)) ++ [s.slot cnt]

/-- Where a repeat form goes on: past itself when it has ended, else at its own first word (R412). -/
def repeatPc (s : State) (ended : Bool) : Word := if ended then s.pcOff else s.pcOff - 4#16

/-- C, S, D, H as they were; Z free. -/
def blockFlags (s t : State) : Prop :=
  t.flags.c = s.flags.c ∧ t.flags.s = s.flags.s ∧ t.flags.d = s.flags.d ∧ t.flags.h = s.flags.h

/-! ### The shapes of the block, string and transfer claims -/

/-- An instruction `i` that searches: `v` compared with the element `b` (46_block_string R411, R420 to R423). -/
def SearchClaim {n : Nat} (i : Instr) (s : State) (rep : Bool) (v b : BitVec n) (k : Word) (f cnt : RegField)
    (cc : BitVec 4) : Prop :=
  let hit := cond cc (diffFlags v b false s.flags)
  RunsFrom i s s (s.blockSlots [f] cnt) [] fun t =>
    t.pcSeg = s.pcSeg ∧ t.pcOff = repeatPc s (!rep || hit || s.readW cnt == 1#16) ∧ Stepped s t [f] k cnt ∧
    t.flags.z = hit ∧ t.flags.d = s.flags.d ∧ t.flags.h = s.flags.h

/-- An instruction that compares the elements `a` and `b` of two strings (R424 to R427). -/
def CompareClaim {n : Nat} (i : Instr) (s : State) (rep : Bool) (a b : BitVec n) (k : Word) (f cnt d : RegField)
    (cc : BitVec 4) : Prop :=
  let hit := cond cc (diffFlags a b false s.flags)
  RunsFrom i s s (s.blockSlots [d, f] cnt) [] fun t =>
    t.pcSeg = s.pcSeg ∧ t.pcOff = repeatPc s (!rep || hit || s.readW cnt == 1#16) ∧ Stepped s t [d, f] k cnt ∧
    t.flags.z = hit ∧ t.flags.c = (diffFlags a b false s.flags).c ∧ t.flags.s = (diffFlags a b false s.flags).s ∧
    t.flags.d = s.flags.d ∧ t.flags.h = s.flags.h

/-- An instruction that moves `n` bytes from one pointer to the other (R430 to R433). -/
def MoveClaim (i : Instr) (s : State) (rep : Bool) (n : Nat) (k : Word) (f cnt d : RegField) : Prop :=
  RunsFrom i s s (s.blockSlots [d, f] cnt) ((s.pointer d).bytes n) fun t =>
    t.pcSeg = s.pcSeg ∧ t.pcOff = repeatPc s (!rep || s.readW cnt == 1#16) ∧ Stepped s t [d, f] k cnt ∧
    (∀ j < n, t.mem.read ((s.pointer d).keyAt j) = s.mem.read ((s.pointer f).keyAt j)) ∧ blockFlags s t

/-- An instruction that translates the byte at `d` by the table at `f` (R440 to R444). -/
def TranslateClaim (i : Instr) (s : State) (rep : Bool) (k : Word) (d cnt f : RegField) : Prop :=
  RunsFrom i s s (s.slot 1#4 :: s.blockSlots [d] cnt) ((s.pointer d).bytes 1) fun t =>
    t.pcSeg = s.pcSeg ∧ t.pcOff = repeatPc s (!rep || s.readW cnt == 1#16) ∧ Stepped s t [d] k cnt ∧
    t.readByte (s.pointer d) = s.readByte ((s.pointer f).add ((s.readByte (s.pointer d)).setWidth 16)) ∧
    t.readB 9#4 = s.readB 9#4 ∧ blockFlags s t

/-- An instruction that translates and tests (R440, R445 to R448). -/
def TranslateTestClaim (i : Instr) (s : State) (rep : Bool) (k : Word) (d cnt f : RegField) : Prop :=
  let v := s.readByte ((s.pointer f).add ((s.readByte (s.pointer d)).setWidth 16))
  RunsFrom i s s (s.slot 1#4 :: s.blockSlots [d] cnt) [] fun t =>
    t.pcSeg = s.pcSeg ∧ t.pcOff = repeatPc s (!rep || v != 0#8 || s.readW cnt == 1#16) ∧ Stepped s t [d] k cnt ∧
    t.readB 1#4 = v ∧ t.readB 9#4 = s.readB 9#4 ∧ t.flags.z = decide (v = 0#8) ∧ blockFlags s t

/-- The environment after an input of `v`: one answer used, one event more (20_memory R88, R90). -/
def State.afterInput (s : State) (space : IoSpace) (wide : Bool) (port v : Word) : State :=
  (s.setIoIn s.ioIn.tail).setIoLog
    (s.ioLog ++ [{ space := space, write := false, wide := wide, port := port, value := v }])

/-- The environment after an output of `v`: one event more. -/
def State.afterOutput (s : State) (space : IoSpace) (wide : Bool) (port v : Word) : State :=
  s.setIoLog (s.ioLog ++ [{ space := space, write := true, wide := wide, port := port, value := v }])

/-- The device's answer: the environment's next word, of which a byte access takes the low byte; any word when
the environment gives none. -/
def IsAnswer (s : State) (wide : Bool) (v : Word) : Prop :=
  ∀ w rest, s.ioIn = w :: rest → v = if wide then w else w &&& 0x00FF#16

/-- A block input of a byte or a word (47_io R462, R474 to R477). -/
def InputClaim (i : Instr) (s : State) (rep : Bool) (space : IoSpace) (wide : Bool) (k : Word) (f cnt d : RegField) :
    Prop :=
  ∃ v, IsAnswer s wide v ∧
  RunsFrom i s (s.afterInput space wide (s.readW f) v) (s.blockSlots [d] cnt)
    ((s.pointer d).bytes (if wide then 2 else 1)) fun t =>
    t.pcSeg = s.pcSeg ∧ t.pcOff = repeatPc s (!rep || s.readW cnt == 1#16) ∧ Stepped s t [d] k cnt ∧
    (wide = true → t.peekWord (s.pointer d) = v) ∧ (wide = false → t.readByte (s.pointer d) = v.extractLsb' 0 8) ∧
    blockFlags s t

/-- A block output of a byte or a word (47_io R462, R478 to R481). -/
def OutputClaim (i : Instr) (s : State) (rep : Bool) (space : IoSpace) (wide : Bool) (k : Word) (f cnt d : RegField) :
    Prop :=
  let v := if wide then s.peekWord (s.pointer f) else (s.readByte (s.pointer f)).setWidth 16
  RunsFrom i s (s.afterOutput space wide (s.readW d) v) (s.blockSlots [f] cnt) [] fun t =>
    t.pcSeg = s.pcSeg ∧ t.pcOff = repeatPc s (!rep || s.readW cnt == 1#16) ∧ Stepped s t [f] k cnt ∧ blockFlags s t

/-- A rotate of a byte or word register (45_rotate_shift R371, R373 to R376). -/
def RotateB (i : Instr) (s : State) (x : Turn) (d : RegField) (two : Bool) : Prop :=
  let out := x.apply (if two then 2 else 1) (s.readB d) s.flags.c
  Runs i s [s.slotB d] [] fun t => t.readB d = out.1 ∧ t.readB (d ^^^ 8#4) = s.readB (d ^^^ 8#4) ∧
    t.flags = { signFlags out.1 s.flags with c := out.2, pv := x.v s.cfg.shiftVPolicy two (s.readB d) s.flags.c }
def RotateW (i : Instr) (s : State) (x : Turn) (d : RegField) (two : Bool) : Prop :=
  let out := x.apply (if two then 2 else 1) (s.readW d) s.flags.c
  Runs i s [s.slot d] [] fun t => t.readW d = out.1 ∧
    t.flags = { signFlags out.1 s.flags with c := out.2, pv := x.v s.cfg.shiftVPolicy two (s.readW d) s.flags.c }

/-- A shift of a byte register, a word register or a pair by the signed count `k` (R371, R372, R379 to R384);
with a count out of range nothing is stated of the result and of C, Z, S, V. -/
def ShiftB (i : Instr) (s : State) (arith : Bool) (d : RegField) (k : Int) : Prop :=
  Runs i s [s.slotB d] [] fun t => t.readB (d ^^^ 8#4) = s.readB (d ^^^ 8#4) ∧ t.flags.d = s.flags.d ∧
    t.flags.h = s.flags.h ∧
    (-8 ≤ k ∧ k ≤ 8 → t.readB d = shifted arith k (s.readB d) ∧ ShiftFlags arith k (s.readB d) s t)
def ShiftW (i : Instr) (s : State) (arith : Bool) (d : RegField) (k : Int) : Prop :=
  Runs i s [s.slot d] [] fun t => t.flags.d = s.flags.d ∧ t.flags.h = s.flags.h ∧
    (-16 ≤ k ∧ k ≤ 16 → t.readW d = shifted arith k (s.readW d) ∧ ShiftFlags arith k (s.readW d) s t)
def ShiftL (i : Instr) (s : State) (arith : Bool) (d : RegField) (k : Int) : Prop :=
  Runs i s (s.slotsL d) [] fun t => t.flags.d = s.flags.d ∧ t.flags.h = s.flags.h ∧
    (-32 ≤ k ∧ k ≤ 32 → t.readL d = shifted arith k (s.readL d) ∧ ShiftFlags arith k (s.readL d) s t)

/-! ### Privilege -/

/-- The privileged list of 60_exceptions R604. -/
def isPrivileged : Instr → Bool
  | .di _ | .ei _ | .halt | .iret | .ldctlRead _ _ | .ldctlWrite _ _ | .ldps _ | .mbit | .mreq _ | .mres | .mset => true
  | .inpb _ _ | .inp _ _ | .outb _ _ | .out _ _ | .sinb _ _ | .sin _ _ | .soutb _ _ | .sout _ _ => true
  | .indb _ _ _ | .ind _ _ _ | .indrb _ _ _ | .indr _ _ _ | .inib _ _ _ | .ini _ _ _ | .inirb _ _ _ | .inir _ _ _ => true
  | .outdb _ _ _ | .outd _ _ _ | .otdrb _ _ _ | .otdr _ _ _ | .outib _ _ _ | .outi _ _ _ | .otirb _ _ _ | .otir _ _ _ => true
  | .sindb _ _ _ | .sind _ _ _ | .sindrb _ _ _ | .sindr _ _ _ | .sinib _ _ _ | .sini _ _ _ | .sinirb _ _ _
  | .sinir _ _ _ => true
  | .soutdb _ _ _ | .soutd _ _ _ | .sotdrb _ _ _ | .sotdr _ _ _ | .soutib _ _ _ | .souti _ _ _ | .sotirb _ _ _
  | .sotir _ _ _ => true
  | _ => false

/-- The extended instructions (49_extended R550). -/
def isExtended : Instr → Bool
  | .epaStm _ _ _ _ | .epaLdm _ _ _ _ | .epaLdr _ _ _ _ _ _ | .epaStr _ _ _ _ _ _ | .epaLdf _ _ _ _ | .epaStf _ _ _ _
  | .epaOp _ _ _ | .epaOther _ _ => true
  | _ => false

/-- The registers that normal mode cannot reach (10_state R22): the system R15, on the Z8001 the system R14. -/
def systemSlot (v : Variant) (i : Fin 18) : Bool := i == 15 || (v == .z8001 && i == 14)

/-- The stack pointer of the system bank as an address (10_state R23): R15 on the Z8002, RR14 on the Z8001. -/
def State.systemStack (s : State) : Address :=
  match s.cfg.variant with
  | .z8002 => { seg := 0#7, off := s.regs.get 15 }
  | .z8001 => { seg := (s.regs.get 14).extractLsb' 8 7, off := s.regs.get 15 }

end Sys2Proof.Machine
end

