-- ==== Sys2Proof/Certificates/Slice0/Obligations.lean ====
section
/-! DEFINITION. The statements for the provers. Every statement about an instruction says that it answers a next
state, what that state holds, and (through `Runs` and `Frame`) that nothing else changes. -/

section
open Sys2Proof Sys2Proof.Machine

/-! ### Encoding and the step -/

/-- 30_encoding: every well-formed instruction, in either segmentation mode, with any words after it, is decoded
from its encoding. -/
def Obligations.DecodeEncode : Prop :=
  ∀ (seg : Bool) (i : Instr) (rest : List Word), wellFormed seg i = true →
    decodeWords seg (encode i ++ rest) = .ok (i, rest)

/-- 30_encoding: what the decoder answers is well formed, and the words it used are as many as the encoding has. -/
def Obligations.DecodeWellFormed : Prop :=
  ∀ (seg : Bool) (ws rest : List Word) (i : Instr), decodeWords seg ws = .ok (i, rest) →
    wellFormed seg i = true ∧ ∃ used, ws = used ++ rest ∧ used.length = lengthWords i

/-- Words written out from the instruction pages decode to the instructions they stand for. -/
def Obligations.DecodeExamples : Prop :=
  decodeWords false [0x8131#16] = .ok (.add 1#4 (.r 3#4), []) ∧
  decodeWords false [0x4102#16, 0x1254#16] = .ok (.add 2#4 (.mem (.da (.ns 0x1254#16))), []) ∧
  decodeWords false [0x7121#16, 0x0300#16] = .ok (.ldLoad 1#4 (.mem (.bx 2#4 3#4)), []) ∧
  decodeWords true [0x7642#16, 0x0308#16] = .ok (.lda 2#4 (.x (.short 3#7 8#8) 4#4), []) ∧
  decodeWords false [0x1C69#16, 0x0502#16] = .ok (.ldmStore (.ir 6#4) 5#4 2#4, []) ∧
  decodeWords false [0xB35B#16, 0x0100#16] = .ok (.sda 5#4 1#4, []) ∧
  decodeWords false [0xBB29#16, 0x0310#16] = .ok (.lddr 2#4 3#4 1#4, []) ∧
  decodeWords false [0x3B66#16, 0x1120#16] = .ok (.out (.da 0x1120#16) 6#4, []) ∧
  decodeWords false [0x7D1D#16] = .ok (.ldctlWrite .psapoff 1#4, []) ∧
  decodeWords false [0x7F03#16] = .ok (.sc 3#8, []) ∧
  decodeWords false [0x3600#16, 0#16] = .error .reservedUpperByte

/-- 10_state R31, 30_encoding R150, 60_exceptions R630: when nothing is taken at the boundary and the words at an even
PC decode to `i`, the step is `exec i` with the PC past the words of `i`; when they decode to no instruction, it is
refused. IN and INB with 0 as port register run (47_io R463) or are refused (R150, R195) by the parameter `inPortZero`
of the model (log 18). -/
def Obligations.StepRunsInstruction : Prop :=
  ∀ s : State, s.latch.boundaryEvent = .run → s.latch.pcOff.getLsbD 0 = false →
    let reserved := fun (i : Instr) => s.cfg.inPortZero = .reserved ∧ ∃ d, i = .inp d (.ir 0#4) ∨ i = .inpb d (.ir 0#4)
    (∀ i rest, decodeWords s.latch.segmented s.latch.wordsAtPc = .ok (i, rest) →
      (¬ reserved i →
        step s = exec i (s.latch.setPcOff (s.latch.pcOff + BitVec.ofNat 16 (2 * lengthWords i)))) ∧
      (reserved i → step s = .refused (.reserved .illFormedOperands))) ∧
    (∀ r, decodeWords s.latch.segmented s.latch.wordsAtPc = .error r → step s = .refused (.reserved r))

/-- 60_exceptions R606 to R609, R630, R632: what happens at a boundary, in the order NMI, segment trap, VI, NVI (D7):
an entry with the environment's identifier and the PC of the boundary, which ends the NMI latch and the segment-trap
request; the vectored and nonvectored requests only where their enable bit is set. The model's choices: reset comes
before all of them and one line changes at a boundary (log 12); with nothing taken, a disabled VI or NVI request
included, a halted CPU stays halted (D19, log 33). -/
def Obligations.BoundaryPriority : Prop :=
  ∀ s : State, let u := s.latch
    let takes := fun (v : State) (e : Word → Event) => ∃ id, (∀ w rest, u.idIn = w :: rest → id = w) ∧
      step s = finish (((v.setIdIn u.idIn.tail).took 1).trapEntry (e id) id u.pcSeg u.pcOff)
    (u.resetRequest = true → step s = .next u.resetEvent) ∧
    (u.resetRequest = false → u.nmiPending = true → takes (u.setNmiPending false) fun _ => .nmi) ∧
    (u.resetRequest = false → u.nmiPending = false → u.segtrapRequest = true → u.cfg.variant = .z8001 →
      takes (u.setSegtrapRequest false) fun _ => .segmentTrap) ∧
    (u.resetRequest = false → u.nmiPending = false → u.segtrapRequest = false →
      (u.viRequest = true → u.fcw.vie = true → takes u fun id => .vi (id.extractLsb' 0 8)) ∧
      ((u.viRequest = false ∨ u.fcw.vie = false) →
        (u.nviRequest = true → u.fcw.nvie = true → takes u fun _ => .nvi) ∧
        ((u.nviRequest = false ∨ u.fcw.nvie = false) → u.halted = true → step s = .next u)))

/-- 70_reset_and_hazards R700, for the parameters of the machine (log 2): a reset request loads FCW and PC from
them, ends a halt, clears the NMI latch and the segment-trap request, drives MO high and leaves memory. That the reset
request itself ends with the step is the model's choice (logs 12 and 13); the VI and NVI levels are not spoken of. -/
def Obligations.ResetRequest : Prop :=
  ∀ s : State, s.latch.resetRequest = true →
    ∃ t, step s = .next t ∧ t.fcw = Fcw.ofWord s.cfg.variant s.cfg.resetFcw ∧ t.pcOff = s.cfg.resetPcOff ∧
      (s.cfg.variant = .z8001 → t.pcSeg = s.cfg.resetPcSeg) ∧ t.halted = false ∧ t.nmiPending = false ∧
      t.segtrapRequest = false ∧ t.resetRequest = false ∧ t.moHigh = true ∧ t.mem = s.mem ∧ t.cfg = s.cfg

/-! ### The invariant -/

/-- The invariant holds after reset. The reset program status is the model's choice (log 2). -/
def Obligations.ResetInvariant : Prop := State.reset.Inv

/-- Every step keeps the invariant: memory in its canonical form, and nothing of the Z8001's in a Z8002. -/
def Obligations.StepInvariant : Prop := ∀ s t : State, s.Inv → step s = .next t → t.Inv

/-! ### Privilege, traps and return -/

/-- 60_exceptions R604: a privileged instruction in normal mode takes the Privileged Instruction trap and nothing
else of it happens; the instructions that touch the FCW and are not privileged do not take it. Identifier and saved
PC are the spec's own choice (D8, D10; logs 8 and 14). -/
def Obligations.PrivilegedTrap : Prop :=
  ∀ (s : State) (i : Instr), s.fcw.sn = false →
    let saved :=
      if s.cfg.trapPcPolicy = .afterFirstWord then s.pcOff - BitVec.ofNat 16 (2 * (lengthWords i - 1)) else s.pcOff
    (isPrivileged i = true → exec i s = finish (s.trapEntry .privileged (firstWord i) s.pcSeg saved)) ∧
    (∀ (m : BitVec 4) (r : RegField),
      i ∈ [Instr.ldctlbRead r, .ldctlbWrite r, .comflg m, .resflg m, .setflg m] →
        ∃ t, exec i s = .next t ∧ t.pcOff = s.pcOff ∧ t.mem = s.mem) ∧
    (∀ v, i = .sc v → exec i s = finish (s.trapEntry .systemCall (firstWord i) s.pcSeg s.pcOff))

/-- 60_exceptions R602, R612, 49_extended R550: an extended instruction with EPA = 0, one of no template too, takes the
Extended Instruction trap in either mode, with its first word as identifier, and with an even system stack pointer
answers a next state. The saved PC is the address of its second word or the address after the complete instruction,
by the policy (D8, D10; logs 8, 14 and 46). -/
def Obligations.ExtendedTrap : Prop :=
  ∀ (s : State) (i : Instr), isExtended i = true → s.fcw.epa = false →
    let saved :=
      if s.cfg.trapPcPolicy = .afterFirstWord then s.pcOff - BitVec.ofNat 16 (2 * (lengthWords i - 1)) else s.pcOff
    exec i s = finish (s.trapEntry .extended (firstWord i) s.pcSeg saved) ∧
    (s.systemStack.even = true → ∃ t, exec i s = .next t)

/-- 60_exceptions R623: where each event's new program status lies, from the base of the Program Status Area; the
place of a vectored PC is the spec's own choice (D9, log 15). -/
def Obligations.ProgramStatusChoice : Prop :=
  ∀ s : State,
    let word := fun (k : Nat) => s.peekWord (s.psaBase.add (BitVec.ofNat 16 k))
    let status2 := fun (fcw pc : Nat) => Except.ok ((s.setFcw (Fcw.ofWord .z8002 (word fcw))).setPcOff (word pc))
    let status1 := fun (fcw seg : Nat) => Except.ok ((s.setFcw (Fcw.ofWord .z8001 (word fcw))).setPc
      ((word seg).extractLsb' 8 7) (word (seg + 2)))
    (s.cfg.variant = .z8002 → s.psaBase = { seg := 0#7, off := s.psapOff ++ 0#8 } ∧
      s.loadStatus .extended = status2 4 6 ∧ s.loadStatus .privileged = status2 8 10 ∧
      s.loadStatus .systemCall = status2 12 14 ∧ s.loadStatus .nmi = status2 20 22 ∧
      s.loadStatus .nvi = status2 24 26 ∧ ∀ v, s.loadStatus (.vi v) = status2 28 (30 + 2 * v.toNat)) ∧
    (s.cfg.variant = .z8001 → s.psaBase = { seg := s.psapSeg, off := s.psapOff ++ 0#8 } ∧
      s.loadStatus .extended = status1 10 12 ∧ s.loadStatus .privileged = status1 18 20 ∧
      s.loadStatus .systemCall = status1 26 28 ∧ s.loadStatus .segmentTrap = status1 34 36 ∧
      s.loadStatus .nmi = status1 42 44 ∧ s.loadStatus .nvi = status1 50 52 ∧
      ∀ v, s.loadStatus (.vi v) = status1 58 (60 + 2 * v.toNat))

/-- 60_exceptions R610, R613, R623 on the Z8002: an entry with an even system stack pointer answers a next state:
identifier, old FCW and PC lie at SP, SP+2, SP+4, the new FCW and PC are those of the event's entry, and no
register but the system R15 changes. Reserved bits of pushed words are 0 (D21, log 16). -/
def Obligations.TrapEntryZ8002 : Prop :=
  ∀ (s : State) (e : Event) (id : Word) (seg : BitVec 7) (off : Word), s.cfg.variant = .z8002 →
    s.systemStack.even = true →
    ∃ t, s.trapEntry e id seg off = .ok t ∧ t.systemStack = s.systemStack.add (-6#16) ∧
      t.peekWord t.systemStack = id ∧ t.peekWord (t.systemStack.add 2#16) = s.fcw.toWord .z8002 ∧
      t.peekWord (t.systemStack.add 4#16) = off ∧
      t.fcw = Fcw.ofWord .z8002 (t.peekWord (s.psaAddr (e.fcwOffset .z8002))) ∧
      t.pcOff = t.peekWord (s.psaAddr (e.pcOffset .z8002)) ∧ t.pcSeg = s.pcSeg ∧ t.halted = false ∧
      (∀ i, i ≠ 15 → t.regs.get i = s.regs.get i) ∧
      (∀ k, k ∉ t.systemStack.bytes 6 → t.mem.read k = s.mem.read k) ∧ t.others = (s.setHalted false).others

/-- The same on the Z8001 (R611: whatever its segmentation mode): four words, the PC as offset and segment word. -/
def Obligations.TrapEntryZ8001 : Prop :=
  ∀ (s : State) (e : Event) (id : Word) (seg : BitVec 7) (off : Word), s.cfg.variant = .z8001 →
    s.systemStack.even = true →
    ∃ t, s.trapEntry e id seg off = .ok t ∧ t.systemStack = s.systemStack.add (-8#16) ∧
      t.peekWord t.systemStack = id ∧ t.peekWord (t.systemStack.add 2#16) = s.fcw.toWord .z8001 ∧
      t.peekWord (t.systemStack.add 4#16) = 0#1 ++ seg ++ 0#8 ∧ t.peekWord (t.systemStack.add 6#16) = off ∧
      t.fcw = Fcw.ofWord .z8001 (t.peekWord (s.psaAddr (e.fcwOffset .z8001))) ∧
      t.pcSeg = (t.peekWord (s.psaAddr (e.pcOffset .z8001))).extractLsb' 8 7 ∧
      t.pcOff = t.peekWord (s.psaAddr (e.pcOffset .z8001 + 2)) ∧ t.halted = false ∧
      (∀ i, i ≠ 15 → t.regs.get i = s.regs.get i) ∧
      (∀ k, k ∉ t.systemStack.bytes 8 → t.mem.read k = s.mem.read k) ∧ t.others = (s.setHalted false).others

/-- 43_program_control (SC, IRET), 60_exceptions R634: an entry at the PC of `s` followed by IRET in a system-mode
handler (on the Z8001 a segmented one) brings back FCW, PC and all registers. -/
def Obligations.TrapThenReturn : Prop :=
  ∀ (s t : State) (e : Event) (id : Word), s.Inv → s.trapEntry e id s.pcSeg s.pcOff = .ok t → t.fcw.sn = true →
    (s.cfg.variant = .z8001 → t.fcw.seg = true) →
    ∃ u, exec .iret t = .next u ∧ u.fcw = s.fcw ∧ u.pcSeg = s.pcSeg ∧ u.pcOff = s.pcOff ∧ u.regs = s.regs ∧
      u.mem = t.mem

/-- 43_program_control (SC, IRET): SC is the System Call trap with the instruction word as identifier and the updated
PC, and answers a next state when the system stack pointer is even. In system mode, with an even stack pointer, IRET
pops identifier, FCW and PC; a Z8001 in nonsegmented mode is refused (log 37). -/
def Obligations.SystemCallAndReturn : Prop :=
  ∀ s : State,
    (∀ v : BitVec 8,
      exec (.sc v) s = finish (s.trapEntry .systemCall (0x7F00#16 + v.setWidth 16) s.pcSeg s.pcOff) ∧
      (s.systemStack.even = true → ∃ t, exec (.sc v) s = .next t)) ∧
    (s.fcw.sn = true → s.cfg.variant = .z8002 → s.systemStack.even = true →
      ∃ t, exec .iret s = .next t ∧ t.fcw = Fcw.ofWord .z8002 (s.peekWord (s.systemStack.add 2#16)) ∧
        t.pcOff = s.peekWord (s.systemStack.add 4#16) ∧ t.pcSeg = s.pcSeg ∧
        t.regs.get 15 = s.regs.get 15 + 6#16 ∧ (∀ i, i ≠ 15 → t.regs.get i = s.regs.get i) ∧ t.mem = s.mem ∧
        t.others = s.others) ∧
    (s.fcw.sn = true → s.cfg.variant = .z8001 → s.fcw.seg = true → s.systemStack.even = true →
      ∃ t, exec .iret s = .next t ∧ t.fcw = Fcw.ofWord .z8001 (s.peekWord (s.systemStack.add 2#16)) ∧
        t.pcSeg = (s.peekWord (s.systemStack.add 4#16)).extractLsb' 8 7 ∧
        t.pcOff = s.peekWord (s.systemStack.add 6#16) ∧
        t.regs.get 15 = s.regs.get 15 + 8#16 ∧ (∀ i, i ≠ 15 → t.regs.get i = s.regs.get i) ∧ t.mem = s.mem ∧
        t.others = s.others) ∧
    (s.fcw.sn = true → s.cfg.variant = .z8001 → s.fcw.seg = false → exec .iret s = .refused .iretNonsegmented)

/-- 60_exceptions R641, R642, 10_state R22, R41: an instruction executed in normal mode, whatever it is, takes one
of the three traps of R602 to R604 from `s`, or it leaves normal mode, the control bits, PSAP, REFRESH, MO, halt,
the I/O spaces and the system stack pointer as they were. -/
def Obligations.NormalModeConfined : Prop :=
  ∀ (s t : State) (i : Instr), s.fcw.sn = false → exec i s = .next t →
    (∃ n e id off, (e = .privileged ∨ e = .extended ∨ e = .systemCall) ∧
      (s.took n).trapEntry e id s.pcSeg off = .ok t) ∨
    ({ t.fcw with flags := s.fcw.flags } = s.fcw ∧ t.psapSeg = s.psapSeg ∧ t.psapOff = s.psapOff ∧
      t.refresh = s.refresh ∧ t.moHigh = s.moHigh ∧ t.halted = s.halted ∧ t.ioIn = s.ioIn ∧ t.ioLog = s.ioLog ∧
      t.cfg = s.cfg ∧ ∀ k, systemSlot s.cfg.variant k = true → t.regs.get k = s.regs.get k)

/-! ### Registers, memory, status -/

/-- 10_state R20 to R22: RHn and RLn are the high and the low byte of Rn, a pair is its even register followed by the odd
one, a quadruple its two pairs. A byte, a word, a pair or a quadruple is read as it was written; a byte write keeps the
other byte of its word; the other registers keep their values. A register field names one register in each mode,
different fields different ones; R15, and R14 on the Z8001, are two registers, of which normal mode names one and
system mode the other; the rest are shared. That S/N alone selects the copy, on the Z8001 whatever SEG is, is the spec's
own choice (D15, log 51). -/
def Obligations.RegisterFile : Prop :=
  (∀ (s : State) (f : RegField) (k : Fin 18),
    (f.getLsbD 3 = false → s.readW f = s.readB f ++ s.readB (f + 8#4)) ∧
    s.readL f = s.readW f ++ s.readW (f + 1#4) ∧ s.readQ f = s.readL f ++ s.readL (f + 2#4) ∧
    (∀ v, (s.writeB f v).readB f = v ∧ (s.writeB f v).readB (f ^^^ 8#4) = s.readB (f ^^^ 8#4) ∧
      (k ≠ s.slotB f → (s.writeB f v).regs.get k = s.regs.get k)) ∧
    (∀ v, (s.writeW f v).readW f = v ∧ (k ≠ s.slot f → (s.writeW f v).regs.get k = s.regs.get k)) ∧
    (∀ v, (s.writeL f v).readL f = v ∧ (k ∉ s.slotsL f → (s.writeL f v).regs.get k = s.regs.get k)) ∧
    (∀ v, (s.writeQ f v).readQ f = v ∧ (k ∉ s.slotsQ f → (s.writeQ f v).regs.get k = s.regs.get k))) ∧
  ∀ (v : Variant) (f g : RegField),
    (∀ sn, regSlot v sn f = regSlot v sn g → f = g) ∧
    (regSlot v true f = regSlot v false f ↔ ¬ (f = 15#4 ∨ (f = 14#4 ∧ v = .z8001))) ∧
    systemSlot v (regSlot v false f) = false ∧
    (systemSlot v (regSlot v true f) = true ↔ f = 15#4 ∨ (f = 14#4 ∧ v = .z8001))

/-- 20_memory section 2 (R71): words, long words and the instruction words at the PC as bytes, the high byte at the
lower address; what is written is read back; every other byte is untouched. The canonical form that a write keeps is
the model's own (log 4). -/
def Obligations.MemoryReadWrite : Prop :=
  ∀ (s : State) (a : Address) (k : Nat),
    let byte := fun (t : State) (j : Nat) => t.readByte (a.add (BitVec.ofNat 16 j))
    s.peekWord a = byte s 0 ++ byte s 1 ∧ s.peekLong a = byte s 0 ++ byte s 1 ++ byte s 2 ++ byte s 3 ∧
    s.wordsAtPc = (List.range 4).map (fun j => s.peekWord (s.pcAddr.add (BitVec.ofNat 16 (2 * j)))) ∧
    (∀ f, s.readL f = s.readW f ++ s.readW (f + 1#4)) ∧
    (∀ v, (s.writeByte a v).readByte a = v ∧
      (k ≠ a.key → (s.writeByte a v).mem.read k = s.mem.read k) ∧
      (s.mem.wf = true → (s.writeByte a v).mem.wf = true)) ∧
    (∀ v, let t := s.pokeWord a v
      byte t 0 = v.extractLsb' 8 8 ∧ byte t 1 = v.extractLsb' 0 8 ∧ t.peekWord a = v ∧
      (k ∉ a.bytes 2 → t.mem.read k = s.mem.read k) ∧ (s.mem.wf = true → t.mem.wf = true)) ∧
    (∀ v, let t := s.pokeLong a v
      byte t 0 = v.extractLsb' 24 8 ∧ byte t 1 = v.extractLsb' 16 8 ∧ byte t 2 = v.extractLsb' 8 8 ∧
      byte t 3 = v.extractLsb' 0 8 ∧ t.peekLong a = v ∧
      (k ∉ a.bytes 4 → t.mem.read k = s.mem.read k) ∧ (s.mem.wf = true → t.mem.wf = true))

/-- 20_memory R75, R79 to R84, 10_state R23, 40_load_exchange R206, 47_io R461: every addressing mode computes its offset
modulo 2^16 and takes the segment of its register, of the instruction or of the PC; index arithmetic never carries into
the segment. A pointer is a word register, in segmented mode a pair. An operand is read from its register, from the
instruction or from memory at its effective address. That the segment of the PC goes with nonsegmented addresses is
the spec's own choice (D16, log 49), and so is the stop at an odd address (D3, log 6). -/
def Obligations.EffectiveAddress : Prop :=
  ∀ (s : State) (r i : RegField) (d o : Word) (g : BitVec 7) (b : BitVec 8),
    let here := fun (off : Word) => ({ seg := s.curSeg, off := off } : Address)
    let pair : Address := { seg := (s.readL r).extractLsb' 24 7, off := (s.readL r).extractLsb' 0 16 }
    let word := fun (a : Address) => if a.even = true then .ok (s.peekWord a) else .error (.fault .oddWordAccess)
    let long := fun (a : Address) => if a.even = true then .ok (s.peekLong a) else .error (.fault .oddWordAccess)
    (s.segmented = true ↔ s.cfg.variant = .z8001 ∧ s.fcw.seg = true) ∧
    (s.cfg.variant = .z8001 → s.curSeg = s.pcSeg) ∧ (s.cfg.variant = .z8002 → s.curSeg = 0#7) ∧
    s.pcAddr = here s.pcOff ∧ s.eaRel d = here (s.pcOff + d) ∧ (∀ m, s.eaB (.mem m) = s.ea m) ∧
    (s.segmented = false →
      s.stackField = 15#4 ∧ s.offField r = r ∧ s.pointerFields r = [r] ∧ s.pointer r = here (s.readW r) ∧
      s.ea (.ir r) = here (s.readW r) ∧ s.ea (.da (.ns o)) = here o ∧ s.ea (.x (.ns o) i) = here (o + s.readW i) ∧
      s.eaB (.ba r d) = here (s.readW r + d) ∧ s.eaB (.bx r i) = here (s.readW r + s.readW i) ∧
      s.eaSrc (.da (.ns o)) = here o ∧ s.eaSrc (.x (.ns o) i) = here (o + s.readW i) ∧
      s.eaSrc (.ba r d) = here (s.readW r + d) ∧ s.eaSrc (.bx r i) = here (s.readW r + s.readW i)) ∧
    (s.segmented = true →
      s.stackField = 14#4 ∧ s.offField r = r + 1#4 ∧ s.pointerFields r = [r, r + 1#4] ∧ s.pointer r = pair ∧
      s.ea (.ir r) = pair ∧ s.ea (.da (.short g b)) = { seg := g, off := 0#8 ++ b } ∧
      s.ea (.da (.long g o)) = { seg := g, off := o } ∧
      s.ea (.x (.short g b) i) = { seg := g, off := (0#8 ++ b) + s.readW i } ∧
      s.ea (.x (.long g o) i) = { seg := g, off := o + s.readW i } ∧
      s.eaB (.ba r d) = { pair with off := pair.off + d } ∧
      s.eaB (.bx r i) = { pair with off := pair.off + s.readW i } ∧
      s.eaSrc (.da (.short g b)) = { seg := g, off := 0#8 ++ b } ∧ s.eaSrc (.da (.long g o)) = { seg := g, off := o } ∧
      s.eaSrc (.x (.short g b) i) = { seg := g, off := (0#8 ++ b) + s.readW i } ∧
      s.eaSrc (.x (.long g o) i) = { seg := g, off := o + s.readW i } ∧
      s.eaSrc (.ba r d) = { pair with off := pair.off + d } ∧
      s.eaSrc (.bx r i) = { pair with off := pair.off + s.readW i }) ∧
    s.srcB (.r r) = .ok (s.readB r) ∧ s.srcW (.r r) = .ok (s.readW r) ∧ s.srcL (.r r) = .ok (s.readL r) ∧
    s.rmB (.r r) = .ok (s.readB r) ∧ s.rmW (.r r) = .ok (s.readW r) ∧ s.rmL (.r r) = .ok (s.readL r) ∧
    (∀ v, s.srcB (.im v) = .ok v) ∧ (∀ v, s.srcW (.im v) = .ok v) ∧ (∀ v, s.srcL (.im v) = .ok v) ∧
    (∀ m, s.srcB (.mem m) = .ok (s.readByte (s.ea m)) ∧ s.rmB (.mem m) = .ok (s.readByte (s.ea m)) ∧
      s.srcW (.mem m) = word (s.ea m) ∧ s.rmW (.mem m) = word (s.ea m) ∧
      s.srcL (.mem m) = long (s.ea m) ∧ s.rmL (.mem m) = long (s.ea m)) ∧
    s.portOf (.da o) = o ∧ s.portOf (.ir r) = s.readW r

/-- 10_state R37: the table of condition codes. -/
def Obligations.ConditionCodes : Prop :=
  ∀ f : Flags,
    let c := fun (k : BitVec 4) => Machine.cond k f
    c 0#4 = false ∧ c 1#4 = (f.s ^^ f.pv) ∧ c 2#4 = (f.z || (f.s ^^ f.pv)) ∧
    c 3#4 = (f.c || f.z) ∧ c 4#4 = f.pv ∧ c 5#4 = f.s ∧ c 6#4 = f.z ∧ c 7#4 = f.c ∧
    c 8#4 = true ∧ c 9#4 = !(f.s ^^ f.pv) ∧ c 10#4 = !(f.z || (f.s ^^ f.pv)) ∧
    c 11#4 = (!f.c && !f.z) ∧ c 12#4 = !f.pv ∧ c 13#4 = !f.s ∧ c 14#4 = !f.z ∧
    c 15#4 = !f.c

/-- 10_state R35, R40, R42: the place of every control bit and flag in the image of the FCW and of every flag in the
FLAGS byte. An image loaded into the FCW and read back has its reserved bits 0, on the Z8002 bit 15 too, and every other
bit as it was (D21, log 16). -/
def Obligations.FcwImage : Prop :=
  ∀ (v : Variant) (w : Word) (x : Fcw) (b : Byte) (f : Flags),
    (Fcw.ofWord .z8001 w).toWord .z8001 = w &&& 0xF8FC#16 ∧ (Fcw.ofWord .z8002 w).toWord .z8002 = w &&& 0x78FC#16 ∧
    (let y := Fcw.ofWord v w
     y.seg = (decide (v = .z8001) && w.getLsbD 15) ∧ y.sn = w.getLsbD 14 ∧ y.epa = w.getLsbD 13 ∧
     y.vie = w.getLsbD 12 ∧ y.nvie = w.getLsbD 11 ∧ y.flags = Flags.ofByte (w.extractLsb' 0 8)) ∧
    (let y := x.toWord v
     y.getLsbD 15 = (decide (v = .z8001) && x.seg) ∧ y.getLsbD 14 = x.sn ∧ y.getLsbD 13 = x.epa ∧
     y.getLsbD 12 = x.vie ∧ y.getLsbD 11 = x.nvie ∧ y.extractLsb' 8 3 = 0#3 ∧ y.extractLsb' 0 8 = x.flags.toByte) ∧
    (let y := Flags.ofByte b
     y.c = b.getLsbD 7 ∧ y.z = b.getLsbD 6 ∧ y.s = b.getLsbD 5 ∧ y.pv = b.getLsbD 4 ∧ y.d = b.getLsbD 3 ∧
     y.h = b.getLsbD 2) ∧
    (let y := f.toByte
     y.getLsbD 7 = f.c ∧ y.getLsbD 6 = f.z ∧ y.getLsbD 5 = f.s ∧ y.getLsbD 4 = f.pv ∧ y.getLsbD 3 = f.d ∧
     y.getLsbD 2 = f.h ∧ y.extractLsb' 0 2 = 0#2)

/-- 41_arithmetic R250: the definitions of `ADD_N` and `SUB_N`, for the three operand sizes, and the flags that the
word and long-word operations take from them. -/
def Obligations.AddSubtract : Prop :=
  ∀ n : Nat, (n = 8 ∨ n = 16 ∨ n = 32) → ∀ (a b : BitVec n) (c : Bool) (f : Flags),
    let sum := a.toNat + b.toNat + c.toNat
    let diff : Int := (a.toNat : Int) - b.toNat - c.toNat
    let r := addR a b c
    let q := subR a b c
    (r.toNat = sum % 2 ^ n ∧ addC a b c = decide (2 ^ n ≤ sum) ∧
      addV a b c = decide (a.getLsbD (n - 1) = b.getLsbD (n - 1) ∧ r.getLsbD (n - 1) ≠ a.getLsbD (n - 1)) ∧
      addH a b c = decide (16 ≤ a.toNat % 16 + b.toNat % 16 + c.toNat) ∧
      addAlu c a b f =
        (r, { f with c := addC a b c, z := decide (r.toNat = 0), s := r.getLsbD (n - 1), pv := addV a b c })) ∧
    ((q.toNat : Int) = diff % 2 ^ n ∧ subC a b c = decide (diff < 0) ∧
      subV a b c = decide (a.getLsbD (n - 1) ≠ b.getLsbD (n - 1) ∧ q.getLsbD (n - 1) = b.getLsbD (n - 1)) ∧
      subH a b c = decide ((a.toNat % 16 : Int) - (b.toNat % 16 : Nat) - c.toNat < 0) ∧
      subAlu c a b f =
        (q, { f with c := subC a b c, z := decide (q.toNat = 0), s := q.getLsbD (n - 1), pv := subV a b c }))

/-! ### Load and exchange -/

/-- LDB into a register (all modes), LDB immediate short form, LDRB from memory. -/
def Obligations.LoadByte : Prop :=
  ∀ (s : State) (d : RegField) (v : Byte) (disp : Word),
    let post := fun (v : Byte) (t : State) =>
      t.readB d = v ∧ t.readB (d ^^^ 8#4) = s.readB (d ^^^ 8#4) ∧ t.flags = s.flags
    (∀ f, Runs (.ldbLoad d (.r f)) s [s.slotB d] [] (post (s.readB f))) ∧
    Runs (.ldbLoad d (.im v)) s [s.slotB d] [] (post v) ∧
    (∀ m, Runs (.ldbLoad d (.mem m)) s [s.slotB d] [] (post (s.readByte (s.eaB m)))) ∧
    Runs (.ldbShort d v) s [s.slotB d] [] (post v) ∧
    Runs (.ldrbLoad d disp) s [s.slotB d] []
      (post (s.readByte { seg := s.curSeg, off := s.pcOff + disp }))

/-- LD, LDK, LDR, LDL, LDRL into registers; a memory operand at an even address. -/
def Obligations.LoadWordLong : Prop :=
  ∀ (s : State) (d : RegField) (disp : Word),
    let rel : Address := { seg := s.curSeg, off := s.pcOff + disp }
    let postW := fun (v : Word) (t : State) => t.readW d = v ∧ t.flags = s.flags
    let postL := fun (v : Long) (t : State) => t.readL d = v ∧ t.flags = s.flags
    (∀ f, Runs (.ldLoad d (.r f)) s [s.slot d] [] (postW (s.readW f))) ∧
    (∀ v, Runs (.ldLoad d (.im v)) s [s.slot d] [] (postW v)) ∧
    (∀ m, (s.eaB m).even = true → Runs (.ldLoad d (.mem m)) s [s.slot d] [] (postW (s.peekWord (s.eaB m)))) ∧
    (∀ v, Runs (.ldk d v) s [s.slot d] [] (postW (0#12 ++ v))) ∧
    (rel.even = true → Runs (.ldrLoad d disp) s [s.slot d] [] (postW (s.peekWord rel))) ∧
    (∀ f, Runs (.ldlLoad d (.r f)) s (s.slotsL d) [] (postL (s.readL f))) ∧
    (∀ v, Runs (.ldlLoad d (.im v)) s (s.slotsL d) [] (postL v)) ∧
    (∀ m, (s.eaB m).even = true → Runs (.ldlLoad d (.mem m)) s (s.slotsL d) [] (postL (s.peekLong (s.eaB m)))) ∧
    (rel.even = true → Runs (.ldrlLoad d disp) s (s.slotsL d) [] (postL (s.peekLong rel)))

/-- LD, LDB, LDL, LDR, LDRB, LDRL into memory: the bytes at the destination address, and no register. -/
def Obligations.StoreMemory : Prop :=
  ∀ (s : State) (f : RegField) (disp : Word),
    let rel : Address := { seg := s.curSeg, off := s.pcOff + disp }
    let postB := fun (a : Address) (v : Byte) (t : State) => t.readByte a = v ∧ t.flags = s.flags
    let postW := fun (a : Address) (v : Word) (t : State) => t.peekWord a = v ∧ t.flags = s.flags
    let postL := fun (a : Address) (v : Long) (t : State) => t.peekLong a = v ∧ t.flags = s.flags
    (∀ m, Runs (.ldbStore m f) s [] ((s.eaB m).bytes 1) (postB (s.eaB m) (s.readB f))) ∧
    (∀ m v, Runs (.ldbStoreImm m v) s [] ((s.ea m).bytes 1) (postB (s.ea m) v)) ∧
    Runs (.ldrbStore disp f) s [] (rel.bytes 1) (postB rel (s.readB f)) ∧
    (∀ m, (s.eaB m).even = true → Runs (.ldStore m f) s [] ((s.eaB m).bytes 2) (postW (s.eaB m) (s.readW f))) ∧
    (∀ m v, (s.ea m).even = true → Runs (.ldStoreImm m v) s [] ((s.ea m).bytes 2) (postW (s.ea m) v)) ∧
    (rel.even = true → Runs (.ldrStore disp f) s [] (rel.bytes 2) (postW rel (s.readW f))) ∧
    (∀ m, (s.eaB m).even = true → Runs (.ldlStore m f) s [] ((s.eaB m).bytes 4) (postL (s.eaB m) (s.readL f))) ∧
    (rel.even = true → Runs (.ldrlStore disp f) s [] (rel.bytes 4) (postL rel (s.readL f)))

/-- CLR, CLRB, EX, EXB: the memory forms at the address of before the instruction. A byte form keeps the other byte of
the word register; EXB of the two bytes of one register swaps them. -/
def Obligations.ClearExchange : Prop :=
  ∀ (s : State) (d : RegField),
    (∀ x, Runs (.clrb x) s (s.rmSlotsB x) (s.rmBytes 1 x) fun t =>
      t.rmB x = .ok 0#8 ∧ KeepsOther s t x ∧ t.flags = s.flags) ∧
    (∀ x a, s.rmW x = .ok a →
      Runs (.clr x) s (s.rmSlotsW x) (s.rmBytes 2 x) fun t => t.rmW x = .ok 0#16 ∧ t.flags = s.flags) ∧
    (∀ f, Runs (.exb d (.r f)) s [s.slotB d, s.slotB f] [] fun t =>
      t.readB d = s.readB f ∧ t.readB f = s.readB d ∧ t.flags = s.flags ∧
      (f ≠ d ^^^ 8#4 → t.readB (d ^^^ 8#4) = s.readB (d ^^^ 8#4) ∧ t.readB (f ^^^ 8#4) = s.readB (f ^^^ 8#4))) ∧
    (∀ m, Runs (.exb d (.mem m)) s [s.slotB d] ((s.ea m).bytes 1) fun t =>
      t.readB d = s.readByte (s.ea m) ∧ t.readByte (s.ea m) = s.readB d ∧
      t.readB (d ^^^ 8#4) = s.readB (d ^^^ 8#4) ∧ t.flags = s.flags) ∧
    (∀ f, Runs (.ex d (.r f)) s [s.slot d, s.slot f] [] fun t =>
      t.readW d = s.readW f ∧ t.readW f = s.readW d ∧ t.flags = s.flags) ∧
    (∀ m, (s.ea m).even = true → Runs (.ex d (.mem m)) s [s.slot d] ((s.ea m).bytes 2) fun t =>
      t.readW d = s.peekWord (s.ea m) ∧ t.peekWord (s.ea m) = s.readW d ∧ t.flags = s.flags)

/-- LDA in DA, X, BA and BX, and LDAR: the address, without a memory access. Nonsegmented, the offset goes to a word
register; segmented, segment and offset go to a pair, whose reserved bits LDAR clears and LDA leaves open (log 35). -/
def Obligations.LoadAddress : Prop :=
  ∀ (s : State) (d b i : RegField) (o disp : Word) (g : BitVec 7) (o8 : BitVec 8),
    (s.segmented = false →
      let gives := fun (j : Instr) (off : Word) => Runs j s [s.slot d] [] fun t => t.readW d = off ∧ t.flags = s.flags
      gives (.lda d (.da (.ns o))) o ∧ gives (.lda d (.x (.ns o) i)) (o + s.readW i) ∧
      gives (.lda d (.ba b disp)) (s.readW b + disp) ∧ gives (.lda d (.bx b i)) (s.readW b + s.readW i) ∧
      gives (.ldar d disp) (s.pcOff + disp)) ∧
    (s.segmented = true →
      let gives := fun (j : Instr) (seg : BitVec 7) (off : Word) => Runs j s (s.slotsL d) [] fun t =>
        (t.readL d).extractLsb' 24 7 = seg ∧ (t.readL d).extractLsb' 0 16 = off ∧ t.flags = s.flags
      let baseSeg := (s.readL b).extractLsb' 24 7
      let baseOff := (s.readL b).extractLsb' 0 16
      gives (.lda d (.da (.short g o8))) g (0#8 ++ o8) ∧ gives (.lda d (.da (.long g o))) g o ∧
      gives (.lda d (.x (.short g o8) i)) g ((0#8 ++ o8) + s.readW i) ∧
      gives (.lda d (.x (.long g o) i)) g (o + s.readW i) ∧
      gives (.lda d (.ba b disp)) baseSeg (baseOff + disp) ∧
      gives (.lda d (.bx b i)) baseSeg (baseOff + s.readW i) ∧
      Runs (.ldar d disp) s (s.slotsL d) [] fun t =>
        t.readL d = 0#1 ++ s.pcSeg ++ 0#8 ++ (s.pcOff + disp) ∧ t.flags = s.flags)

/-- LDM: `num + 1` consecutive registers, R0 after R15, from or to consecutive words at an even address. -/
def Obligations.LoadMultiple : Prop :=
  ∀ (s : State) (f : RegField) (m : Mem) (num : BitVec 4), (s.ea m).even = true →
    (Runs (.ldmLoad f m num) s ((List.range (num.toNat + 1)).map fun j => s.slot (f + BitVec.ofNat 4 j)) [] fun t =>
      t.flags = s.flags ∧ ∀ j ≤ num.toNat,
        t.readW (f + BitVec.ofNat 4 j) = s.peekWord ((s.ea m).add (BitVec.ofNat 16 (2 * j)))) ∧
    Runs (.ldmStore m f num) s [] ((s.ea m).bytes (2 * (num.toNat + 1))) fun t =>
      t.flags = s.flags ∧ ∀ j ≤ num.toNat,
        t.peekWord ((s.ea m).add (BitVec.ofNat 16 (2 * j))) = s.readW (f + BitVec.ofNat 4 j)

/-- PUSH and PUSHL with an even stack pointer: the pointer moves and the value goes to its new place. The value is the
source, read before the decrement, unless the source lies in the stack pointer itself, where it is open (U5, log 22). A
PUSHL pair of which the word stack pointer is the odd half is read before the decrement like any other. -/
def Obligations.PushStoresSource : Prop :=
  ∀ (s : State) (sp : RegField), (s.pointer sp).even = true →
    let a2 := (s.pointer sp).add (-2#16)
    let a4 := (s.pointer sp).add (-4#16)
    (∀ src v, s.srcW src = .ok v → Runs (.push sp src) s [s.slot (s.offField sp)] (a2.bytes 2) fun t =>
      t.pointer sp = a2 ∧ t.flags = s.flags ∧
      ((∀ f, src = .r f → f ∉ s.pointerFields sp) → t.peekWord a2 = v)) ∧
    (∀ src v, s.rmL src = .ok v → Runs (.pushl sp src) s [s.slot (s.offField sp)] (a4.bytes 4) fun t =>
      t.pointer sp = a4 ∧ t.flags = s.flags ∧
      ((∀ f, src = .r f → f ∉ s.pointerFields sp) →
        (∀ m, src = .mem m → sameField m sp = false) → t.peekLong a4 = v))

/-- POP and POPL with an even stack pointer: the value at the pointer goes to the destination, whose address is that
of before the instruction, and the pointer is incremented. A destination in the stack pointer itself, or a memory
destination through it, leaves the pointer's registers open and memory alone (U4). -/
def Obligations.PopLoadsTop : Prop :=
  ∀ (s : State) (sp : RegField), (s.pointer sp).even = true →
    let p := s.pointer sp
    let moved := [s.slot (s.offField sp)]
    let open4 := (s.pointerFields sp).map s.slot
    (∀ f, f ∉ s.pointerFields sp → Runs (.pop (.r f) sp) s (s.slot f :: moved) [] fun t =>
      t.readW f = s.peekWord p ∧ t.pointer sp = p.add 2#16 ∧ t.flags = s.flags) ∧
    (∀ m, (s.ea m).even = true → sameField m sp = false → Runs (.pop (.mem m) sp) s moved ((s.ea m).bytes 2) fun t =>
      t.peekWord (s.ea m) = s.peekWord p ∧ t.pointer sp = p.add 2#16 ∧ t.flags = s.flags) ∧
    (∀ f, f ∉ s.pointerFields sp → f + 1#4 ∉ s.pointerFields sp →
      Runs (.popl (.r f) sp) s (s.slotsL f ++ moved) [] fun t =>
        t.readL f = s.peekLong p ∧ t.pointer sp = p.add 4#16 ∧ t.flags = s.flags) ∧
    (∀ m, (s.ea m).even = true → sameField m sp = false → Runs (.popl (.mem m) sp) s moved ((s.ea m).bytes 4) fun t =>
      t.peekLong (s.ea m) = s.peekLong p ∧ t.pointer sp = p.add 4#16 ∧ t.flags = s.flags) ∧
    (∀ f, f ∈ s.pointerFields sp → Runs (.pop (.r f) sp) s open4 [] fun t => t.flags = s.flags) ∧
    (∀ f, f ∈ s.pointerFields sp ∨ f + 1#4 ∈ s.pointerFields sp →
      Runs (.popl (.r f) sp) s (s.slotsL f ++ open4) [] fun t => t.flags = s.flags) ∧
    (∀ m, sameField m sp = true →
      (Runs (.pop (.mem m) sp) s open4 [] fun t => t.flags = s.flags) ∧
      Runs (.popl (.mem m) sp) s open4 [] fun t => t.flags = s.flags)

/-! ### Arithmetic -/

/-- ADD, SUB, ADC, SBC, ADDL, SUBL on a source operand that reads as `b`. -/
def Obligations.AddSubWordLong : Prop :=
  ∀ (s : State) (d f : RegField),
    let a := s.readW d
    let c := s.flags.c
    (∀ src b, s.srcW src = .ok b →
      (Runs (.add d src) s [s.slot d] [] fun t => t.readW d = sumOf a b false ∧ t.flags = sumFlags a b false s.flags) ∧
      Runs (.sub d src) s [s.slot d] [] fun t =>
        t.readW d = diffOf a b false ∧ t.flags = diffFlags a b false s.flags) ∧
    (Runs (.adc d f) s [s.slot d] [] fun t =>
      t.readW d = sumOf a (s.readW f) c ∧ t.flags = sumFlags a (s.readW f) c s.flags) ∧
    (Runs (.sbc d f) s [s.slot d] [] fun t =>
      t.readW d = diffOf a (s.readW f) c ∧ t.flags = diffFlags a (s.readW f) c s.flags) ∧
    (∀ src b, s.srcL src = .ok b →
      (Runs (.addl d src) s (s.slotsL d) [] fun t =>
        t.readL d = sumOf (s.readL d) b false ∧ t.flags = sumFlags (s.readL d) b false s.flags) ∧
      Runs (.subl d src) s (s.slotsL d) [] fun t =>
        t.readL d = diffOf (s.readL d) b false ∧ t.flags = diffFlags (s.readL d) b false s.flags)

/-- ADDB, SUBB, ADCB, SBCB: as the word forms, with D and H. -/
def Obligations.AddSubByte : Prop :=
  ∀ (s : State) (d f : RegField) (src : Src 8) (b : Byte), s.srcB src = .ok b →
    let a := s.readB d
    let c := s.flags.c
    let y := s.readB f
    let post := fun (r : Byte) (fl : Flags) (t : State) =>
      t.readB d = r ∧ t.readB (d ^^^ 8#4) = s.readB (d ^^^ 8#4) ∧ t.flags = fl
    let addH := fun (x : Byte) (c : Bool) => decide (16 ≤ a.toNat % 16 + x.toNat % 16 + c.toNat)
    let subH := fun (x : Byte) (c : Bool) => decide (a.toNat % 16 < x.toNat % 16 + c.toNat)
    Runs (.addb d src) s [s.slotB d] []
      (post (sumOf a b false) { sumFlags a b false s.flags with d := false, h := addH b false }) ∧
    Runs (.subb d src) s [s.slotB d] []
      (post (diffOf a b false) { diffFlags a b false s.flags with d := true, h := subH b false }) ∧
    Runs (.adcb d f) s [s.slotB d] [] (post (sumOf a y c) { sumFlags a y c s.flags with d := false, h := addH y c }) ∧
    Runs (.sbcb d f) s [s.slotB d] [] (post (diffOf a y c) { diffFlags a y c s.flags with d := true, h := subH y c })

/-- CP, CPB, CPL: the flags of the difference, and nothing else. -/
def Obligations.CompareSetsFlags : Prop :=
  ∀ (s : State) (d : RegField),
    (∀ src b, s.srcB src = .ok b →
      Runs (.cpb d src) s [] [] fun t => t.flags = diffFlags (s.readB d) b false s.flags) ∧
    (∀ src b, s.srcW src = .ok b →
      Runs (.cp d src) s [] [] fun t => t.flags = diffFlags (s.readW d) b false s.flags) ∧
    (∀ src b, s.srcL src = .ok b →
      Runs (.cpl d src) s [] [] fun t => t.flags = diffFlags (s.readL d) b false s.flags) ∧
    (∀ m v, Runs (.cpbMemImm m v) s [] [] fun t => t.flags = diffFlags (s.readByte (s.ea m)) v false s.flags) ∧
    (∀ m v, (s.ea m).even = true →
      Runs (.cpMemImm m v) s [] [] fun t => t.flags = diffFlags (s.peekWord (s.ea m)) v false s.flags)

/-- INC, DEC by 1 to 16 and NEG, byte and word, on a destination in a register or in memory that reads as `a`. A byte
form keeps the other byte of the word register. -/
def Obligations.IncDecNeg : Prop :=
  ∀ (s : State) (x : RM) (num : BitVec 4),
    (∀ a, s.rmB x = .ok a →
      let k : Byte := BitVec.ofNat 8 (num.toNat + 1)
      (Runs (.incb x num) s (s.rmSlotsB x) (s.rmBytes 1 x) fun t => t.rmB x = .ok (sumOf a k false) ∧ KeepsOther s t x ∧
        t.flags = { sumFlags a k false s.flags with c := s.flags.c }) ∧
      (Runs (.decb x num) s (s.rmSlotsB x) (s.rmBytes 1 x) fun t => t.rmB x = .ok (diffOf a k false) ∧ KeepsOther s t x ∧
        t.flags = { diffFlags a k false s.flags with c := s.flags.c }) ∧
      Runs (.negb x) s (s.rmSlotsB x) (s.rmBytes 1 x) fun t => t.rmB x = .ok (diffOf 0#8 a false) ∧ KeepsOther s t x ∧
        t.flags = { signFlags (diffOf 0#8 a false) s.flags with c := decide (a ≠ 0#8), pv := decide (a = 0x80#8) }) ∧
    (∀ a, s.rmW x = .ok a →
      let k : Word := BitVec.ofNat 16 (num.toNat + 1)
      (Runs (.inc x num) s (s.rmSlotsW x) (s.rmBytes 2 x) fun t => t.rmW x = .ok (sumOf a k false) ∧
        t.flags = { sumFlags a k false s.flags with c := s.flags.c }) ∧
      (Runs (.dec x num) s (s.rmSlotsW x) (s.rmBytes 2 x) fun t => t.rmW x = .ok (diffOf a k false) ∧
        t.flags = { diffFlags a k false s.flags with c := s.flags.c }) ∧
      Runs (.neg x) s (s.rmSlotsW x) (s.rmBytes 2 x) fun t => t.rmW x = .ok (diffOf 0#16 a false) ∧
        t.flags = { signFlags (diffOf 0#16 a false) s.flags with c := decide (a ≠ 0#16), pv := decide (a = 0x8000#16) })

/-- DAB: it completes on every byte, and after the addition or the subtraction of two BCD bytes it leaves the BCD
result and the decimal carry or borrow. Sums with both C and H set (99 + 99) rest on the row that the printed table
lacks and the spec restores (C23, log 24). -/
def Obligations.DecimalAdjust : Prop :=
  ∀ (s : State) (d : RegField),
    Runs (.dab d) s [s.slotB d] [] fun t =>
      t.readB (d ^^^ 8#4) = s.readB (d ^^^ 8#4) ∧ t.flags.pv = s.flags.pv ∧ t.flags.d = s.flags.d ∧
      t.flags.h = s.flags.h ∧
      ∀ x y : Byte, isBcd x = true → isBcd y = true →
        (s.readB d = x + y → s.flags.d = false → s.flags.c = decide (256 ≤ x.toNat + y.toNat) →
          s.flags.h = decide (16 ≤ x.toNat % 16 + y.toNat % 16) →
          isBcd (t.readB d) = true ∧ bcdValue (t.readB d) = (bcdValue x + bcdValue y) % 100 ∧
          t.flags.c = decide (100 ≤ bcdValue x + bcdValue y) ∧ t.flags.z = decide (t.readB d = 0#8) ∧
          t.flags.s = (t.readB d).msb) ∧
        (s.readB d = x - y → s.flags.d = true → s.flags.c = decide (x.toNat < y.toNat) →
          s.flags.h = decide (x.toNat % 16 < y.toNat % 16) →
          isBcd (t.readB d) = true ∧ bcdValue (t.readB d) = (bcdValue x + 100 - bcdValue y) % 100 ∧
          t.flags.c = decide (bcdValue x < bcdValue y) ∧ t.flags.z = decide (t.readB d = 0#8) ∧
          t.flags.s = (t.readB d).msb)

/-- EXTSB, EXTS, EXTSL: the low half keeps its value and the high half takes its sign. -/
def Obligations.ExtendSign : Prop :=
  ∀ (s : State) (d : RegField),
    (Runs (.extsb d) s [s.slot d] [] fun t =>
      (t.readW d).toInt = ((s.readW d).extractLsb' 0 8).toInt ∧ t.flags = s.flags) ∧
    (Runs (.exts d) s (s.slotsL d) [] fun t => (t.readL d).toInt = (s.readW (d + 1#4)).toInt ∧ t.flags = s.flags) ∧
    Runs (.extsl d) s (s.slotsQ d) [] fun t => (t.readQ d).toInt = (s.readL (d + 2#4)).toInt ∧ t.flags = s.flags

/-- MULT and MULTL: the signed product of the source and the low half of the destination. -/
def Obligations.MultiplyExactProduct : Prop :=
  ∀ (s : State) (d : RegField),
    (∀ src b, s.srcW src = .ok b →
      let p := (s.readW (d + 1#4)).toInt * b.toInt
      Runs (.mult d src) s (s.slotsL d) [] fun t => (t.readL d).toInt = p ∧
        t.flags = { s.flags with c := outOfRange 16 p, z := decide (p = 0), s := decide (p < 0), pv := false }) ∧
    (∀ src b, s.srcL src = .ok b →
      let p := (s.readL (d + 2#4)).toInt * b.toInt
      Runs (.multl d src) s (s.slotsQ d) [] fun t => (t.readQ d).toInt = p ∧
        t.flags = { s.flags with c := outOfRange 32 p, z := decide (p = 0), s := decide (p < 0), pv := false })

/-- DIV and DIVL: the four cases of 41_arithmetic R264, with the quotient truncated toward zero in the low half and
the remainder in the high half; S after a division by zero is the model's choice (log 25). -/
def Obligations.DivideFourCases : Prop :=
  ∀ (s : State) (d : RegField),
    (∀ src b, s.srcW src = .ok b →
      let n := (s.readL d).toInt
      let q := n.tdiv b.toInt
      Runs (.div d src) s (s.slotsL d) [] fun t => t.flags.d = s.flags.d ∧ t.flags.h = s.flags.h ∧
        (b = 0#16 → t.readL d = s.readL d ∧ t.flags = { s.flags with pv := true, z := true, c := false, s := false }) ∧
        (b ≠ 0#16 → -(2 ^ 16 : Int) ≤ q → q < 2 ^ 16 →
          t.readW (d + 1#4) = BitVec.ofInt 16 q ∧ (t.readW d).toInt = n.tmod b.toInt ∧
          t.flags = { s.flags with pv := outOfRange 16 q, c := outOfRange 16 q, z := decide (q = 0), s := decide (q < 0) }) ∧
        (b ≠ 0#16 → (q < -(2 ^ 16 : Int) ∨ 2 ^ 16 ≤ q) →
          t.flags.pv = true ∧ t.flags.c = false ∧ t.flags.z = false)) ∧
    (∀ src b, s.srcL src = .ok b →
      let n := (s.readQ d).toInt
      let q := n.tdiv b.toInt
      Runs (.divl d src) s (s.slotsQ d) [] fun t => t.flags.d = s.flags.d ∧ t.flags.h = s.flags.h ∧
        (b = 0#32 → t.readQ d = s.readQ d ∧ t.flags = { s.flags with pv := true, z := true, c := false, s := false }) ∧
        (b ≠ 0#32 → -(2 ^ 32 : Int) ≤ q → q < 2 ^ 32 →
          t.readL (d + 2#4) = BitVec.ofInt 32 q ∧ (t.readL d).toInt = n.tmod b.toInt ∧
          t.flags = { s.flags with pv := outOfRange 32 q, c := outOfRange 32 q, z := decide (q = 0), s := decide (q < 0) }) ∧
        (b ≠ 0#32 → (q < -(2 ^ 32 : Int) ∨ 2 ^ 32 ≤ q) →
          t.flags.pv = true ∧ t.flags.c = false ∧ t.flags.z = false))

/-! ### Logical -/

/-- AND, OR, XOR: the bits of the result; Z and S; P says that a byte result has an even number of ones, and is
unaffected by a word one. -/
def Obligations.LogicalTwoOperand : Prop :=
  ∀ (s : State) (d : RegField),
    let postB := fun (op : Bool → Bool → Bool) (b : Byte) (t : State) =>
      (∀ j < 8, (t.readB d).getLsbD j = op ((s.readB d).getLsbD j) (b.getLsbD j)) ∧
      t.readB (d ^^^ 8#4) = s.readB (d ^^^ 8#4) ∧
      t.flags = { signFlags (t.readB d) s.flags with pv := evenOnes (t.readB d) }
    let postW := fun (op : Bool → Bool → Bool) (b : Word) (t : State) =>
      (∀ j < 16, (t.readW d).getLsbD j = op ((s.readW d).getLsbD j) (b.getLsbD j)) ∧
      t.flags = signFlags (t.readW d) s.flags
    (∀ src b, s.srcB src = .ok b →
      Runs (.andb d src) s [s.slotB d] [] (postB and b) ∧ Runs (.orb d src) s [s.slotB d] [] (postB or b) ∧
      Runs (.xorb d src) s [s.slotB d] [] (postB xor b)) ∧
    (∀ src b, s.srcW src = .ok b →
      Runs (.and d src) s [s.slot d] [] (postW and b) ∧ Runs (.or d src) s [s.slot d] [] (postW or b) ∧
      Runs (.xor d src) s [s.slot d] [] (postW xor b))

/-- COM and TEST; P says that a byte has an even number of ones, and TESTL leaves P/V open. COMB keeps the other byte of
the word register. -/
def Obligations.ComplementTest : Prop :=
  ∀ (s : State) (x : RM),
    (∀ a, s.rmB x = .ok a →
      (Runs (.comb x) s (s.rmSlotsB x) (s.rmBytes 1 x) fun t => t.rmB x = .ok (~~~a) ∧
        KeepsOther s t x ∧ t.flags = { signFlags (~~~a) s.flags with pv := evenOnes (~~~a) }) ∧
      Runs (.testb x) s [] [] fun t => t.flags = { signFlags a s.flags with pv := evenOnes a }) ∧
    (∀ a, s.rmW x = .ok a →
      (Runs (.com x) s (s.rmSlotsW x) (s.rmBytes 2 x) fun t => t.rmW x = .ok (~~~a) ∧ t.flags = signFlags (~~~a) s.flags) ∧
      Runs (.test x) s [] [] fun t => t.flags = signFlags a s.flags) ∧
    (∀ a, s.rmL x = .ok a →
      Runs (.testl x) s [] [] fun t => ∃ p, t.flags = { signFlags a s.flags with pv := p })

/-! ### Program control -/

/-- CALL, CALR and RET through the stack pointer of the current mode, at an even address; RET with a false condition
goes on whatever the stack pointer is. The reserved bits of a pushed segmented PC are 0 (D21, log 16). -/
def Obligations.CallReturn : Prop :=
  ∀ (s : State),
    (∀ cc, Machine.cond cc s.flags = false → Runs (.ret cc) s [] [] fun t => t.flags = s.flags) ∧
    ((s.pointer s.stackField).even = true →
      let sp := s.pointer s.stackField
      let slots := [s.slot (s.offField s.stackField)]
      let down := if s.segmented then sp.add (-4#16) else sp.add (-2#16)
      let saved := fun (t : State) => t.flags = s.flags ∧ t.pointer s.stackField = down ∧
        (s.segmented = true → t.peekLong down = 0#1 ++ s.pcSeg ++ 0#8 ++ s.pcOff) ∧
        (s.segmented = false → t.peekWord down = s.pcOff)
      let keys := down.bytes (if s.segmented then 4 else 2)
      (∀ m, RunsFrom (.call m) s s slots keys fun t => saved t ∧ t.pcOff = (s.ea m).off ∧
        t.pcSeg = if s.segmented then (s.ea m).seg else s.pcSeg) ∧
      (∀ disp : BitVec 12, RunsFrom (.calr disp) s s slots keys fun t => saved t ∧
        t.pcOff = BitVec.ofInt 16 (s.pcOff.toInt - 2 * disp.toInt) ∧ t.pcSeg = s.pcSeg) ∧
      ∀ cc, Machine.cond cc s.flags = true → RunsFrom (.ret cc) s s slots [] fun t => t.flags = s.flags ∧
        t.pointer s.stackField = sp.add (if s.segmented then 4#16 else 2#16) ∧
        (s.segmented = true → t.pcOff = s.peekWord (sp.add 2#16) ∧ t.pcSeg = (s.peekWord sp).extractLsb' 8 7) ∧
        (s.segmented = false → t.pcOff = s.peekWord sp ∧ t.pcSeg = s.pcSeg))

/-- JP, JR, DJNZ, DBJNZ. -/
def Obligations.JumpTargets : Prop :=
  ∀ (s : State) (cc : BitVec 4) (r : RegField) (m : Mem) (d8 : BitVec 8) (d7 : BitVec 7),
    (Machine.cond cc s.flags = true →
      (RunsFrom (.jp cc m) s s [] [] fun t => t.flags = s.flags ∧ t.pcOff = (s.ea m).off ∧
        t.pcSeg = if s.segmented then (s.ea m).seg else s.pcSeg) ∧
      RunsFrom (.jr cc d8) s s [] [] fun t => t.flags = s.flags ∧ t.pcSeg = s.pcSeg ∧
        t.pcOff = BitVec.ofInt 16 (s.pcOff.toInt + 2 * d8.toInt)) ∧
    (Machine.cond cc s.flags = false →
      (Runs (.jp cc m) s [] [] fun t => t.flags = s.flags) ∧ Runs (.jr cc d8) s [] [] fun t => t.flags = s.flags) ∧
    (RunsFrom (.djnz r d7) s s [s.slot r] [] fun t => t.flags = s.flags ∧ t.pcSeg = s.pcSeg ∧
      t.readW r = s.readW r - 1#16 ∧
      t.pcOff = if s.readW r = 1#16 then s.pcOff else s.pcOff - BitVec.ofNat 16 (2 * d7.toNat)) ∧
    RunsFrom (.dbjnz r d7) s s [s.slotB r] [] fun t => t.flags = s.flags ∧ t.pcSeg = s.pcSeg ∧
      t.readB r = s.readB r - 1#8 ∧ t.readB (r ^^^ 8#4) = s.readB (r ^^^ 8#4) ∧
      t.pcOff = if s.readB r = 1#8 then s.pcOff else s.pcOff - BitVec.ofNat 16 (2 * d7.toNat)

/-! ### Bit manipulation -/

/-- BIT: Z is the complement of the bit, and nothing else changes. RES and SET: one bit of the destination, no
flag. Static and dynamic. A byte form keeps the other byte of the word register. A static byte bit number above 7 is no
encoding (30_encoding R131, R150): the decoder refuses it (log 17). -/
def Obligations.BitInstructions : Prop :=
  ∀ (s : State) (x : RM) (d f : RegField) (num : BitVec 4),
    let bitsB := fun (a r : Byte) (n : Nat) (b : Bool) => ∀ j < 8, r.getLsbD j = if j = n then b else a.getLsbD j
    let bitsW := fun (a r : Word) (n : Nat) (b : Bool) => ∀ j < 16, r.getLsbD j = if j = n then b else a.getLsbD j
    (∀ a, s.rmB x = .ok a → num.toNat < 8 →
      (Runs (.bitb x num) s [] [] fun t => t.flags = { s.flags with z := !a.getLsbD num.toNat }) ∧
      (Runs (.resb x num) s (s.rmSlotsB x) (s.rmBytes 1 x) fun t =>
        t.flags = s.flags ∧ KeepsOther s t x ∧ ∃ r, t.rmB x = .ok r ∧ bitsB a r num.toNat false) ∧
      Runs (.setb x num) s (s.rmSlotsB x) (s.rmBytes 1 x) fun t =>
        t.flags = s.flags ∧ KeepsOther s t x ∧ ∃ r, t.rmB x = .ok r ∧ bitsB a r num.toNat true) ∧
    (∀ a, s.rmW x = .ok a →
      (Runs (.bit x num) s [] [] fun t => t.flags = { s.flags with z := !a.getLsbD num.toNat }) ∧
      (Runs (.res x num) s (s.rmSlotsW x) (s.rmBytes 2 x) fun t =>
        t.flags = s.flags ∧ ∃ r, t.rmW x = .ok r ∧ bitsW a r num.toNat false) ∧
      Runs (.set x num) s (s.rmSlotsW x) (s.rmBytes 2 x) fun t =>
        t.flags = s.flags ∧ ∃ r, t.rmW x = .ok r ∧ bitsW a r num.toNat true) ∧
    (Runs (.bitbDyn d f) s [] [] fun t =>
      t.flags = { s.flags with z := !(s.readB d).getLsbD ((s.readW f).toNat % 8) }) ∧
    (Runs (.bitDyn d f) s [] [] fun t =>
      t.flags = { s.flags with z := !(s.readW d).getLsbD ((s.readW f).toNat % 16) }) ∧
    (Runs (.resbDyn d f) s [s.slotB d] [] fun t => t.flags = s.flags ∧
      t.readB (d ^^^ 8#4) = s.readB (d ^^^ 8#4) ∧ bitsB (s.readB d) (t.readB d) ((s.readW f).toNat % 8) false) ∧
    (Runs (.setbDyn d f) s [s.slotB d] [] fun t => t.flags = s.flags ∧
      t.readB (d ^^^ 8#4) = s.readB (d ^^^ 8#4) ∧ bitsB (s.readB d) (t.readB d) ((s.readW f).toNat % 8) true) ∧
    (Runs (.resDyn d f) s [s.slot d] [] fun t => t.flags = s.flags ∧
      bitsW (s.readW d) (t.readW d) ((s.readW f).toNat % 16) false) ∧
    Runs (.setDyn d f) s [s.slot d] [] fun t => t.flags = s.flags ∧
      bitsW (s.readW d) (t.readW d) ((s.readW f).toNat % 16) true

/-- TCC sets bit 0 when the condition holds; TSET leaves all ones and the old sign in S. A byte form keeps the other
byte of the word register. -/
def Obligations.TestSet : Prop :=
  ∀ (s : State) (x : RM) (d : RegField) (cc : BitVec 4),
    (Runs (.tccb cc d) s [s.slotB d] [] fun t => t.flags = s.flags ∧ t.readB (d ^^^ 8#4) = s.readB (d ^^^ 8#4) ∧
      ∀ j < 8, (t.readB d).getLsbD j = ((s.readB d).getLsbD j || (decide (j = 0) && Machine.cond cc s.flags))) ∧
    (Runs (.tcc cc d) s [s.slot d] [] fun t => t.flags = s.flags ∧
      ∀ j < 16, (t.readW d).getLsbD j = ((s.readW d).getLsbD j || (decide (j = 0) && Machine.cond cc s.flags))) ∧
    (∀ a, s.rmB x = .ok a → Runs (.tsetb x) s (s.rmSlotsB x) (s.rmBytes 1 x) fun t =>
      t.rmB x = .ok 0xFF#8 ∧ KeepsOther s t x ∧ t.flags = { s.flags with s := a.msb }) ∧
    (∀ a, s.rmW x = .ok a → Runs (.tset x) s (s.rmSlotsW x) (s.rmBytes 2 x) fun t =>
      t.rmW x = .ok 0xFFFF#16 ∧ t.flags = { s.flags with s := a.msb })

/-! ### Rotates and shifts -/

/-- RL, RLC, RR, RRC by one or two positions, V by the parameter (D28, log 9), and the digit rotates RLDB and RRDB. -/
def Obligations.RotateResults : Prop :=
  ∀ (s : State) (d : RegField) (two : Bool),
    RotateB (.rlb d two) s .left d two ∧ RotateW (.rl d two) s .left d two ∧
    RotateB (.rlcb d two) s .leftCarry d two ∧ RotateW (.rlc d two) s .leftCarry d two ∧
    RotateB (.rrb d two) s .right d two ∧ RotateW (.rr d two) s .right d two ∧
    RotateB (.rrcb d two) s .rightCarry d two ∧ RotateW (.rrc d two) s .rightCarry d two ∧
    ∀ src : RegField,
      let l := s.readB d
      let b := s.readB src
      let post := fun (nl nb : Byte) (t : State) => t.flags.c = s.flags.c ∧ t.flags.pv = s.flags.pv ∧
        t.flags.d = s.flags.d ∧ t.flags.h = s.flags.h ∧
        (d = src → t.readB (d ^^^ 8#4) = s.readB (d ^^^ 8#4)) ∧
        (d ≠ src → t.readB d = nl ∧ t.readB src = nb ∧ t.flags.z = decide (nl = 0#8) ∧
          (src ≠ d ^^^ 8#4 → t.readB (d ^^^ 8#4) = s.readB (d ^^^ 8#4) ∧
            t.readB (src ^^^ 8#4) = s.readB (src ^^^ 8#4)))
      Runs (.rldb d src) s [s.slotB d, s.slotB src] []
        (post (l.extractLsb' 4 4 ++ b.extractLsb' 4 4) (b.extractLsb' 0 4 ++ l.extractLsb' 0 4)) ∧
      Runs (.rrdb d src) s [s.slotB d, s.slotB src] []
        (post (l.extractLsb' 4 4 ++ b.extractLsb' 0 4) (l.extractLsb' 0 4 ++ b.extractLsb' 4 4))

/-- The static and the dynamic shifts, arithmetic and logical, of bytes, words and long words; V by the parameter (D28,
logs 9 and 47), a count out of range as U6 leaves it (log 23). -/
def Obligations.ShiftResults : Prop :=
  ∀ (s : State) (d f : RegField) (c8 : BitVec 8) (c16 : BitVec 16),
    let k := (s.readW f).toInt
    ShiftB (.sdab d f) s true d k ∧ ShiftW (.sda d f) s true d k ∧ ShiftL (.sdal d f) s true d k ∧
    ShiftB (.sdlb d f) s false d k ∧ ShiftW (.sdl d f) s false d k ∧ ShiftL (.sdll d f) s false d k ∧
    ShiftB (.slab d c8) s true d c8.toInt ∧ ShiftW (.sla d c16) s true d c16.toInt ∧
    ShiftL (.slal d c16) s true d c16.toInt ∧ ShiftB (.sllb d c8) s false d c8.toInt ∧
    ShiftW (.sll d c16) s false d c16.toInt ∧ ShiftL (.slll d c16) s false d c16.toInt ∧
    ShiftB (.srab d c8) s true d c8.toInt ∧ ShiftW (.sra d c16) s true d c16.toInt ∧
    ShiftL (.sral d c16) s true d c16.toInt ∧ ShiftB (.srlb d c8) s false d c8.toInt ∧
    ShiftW (.srl d c16) s false d c16.toInt ∧ ShiftL (.srll d c16) s false d c16.toInt

/-! ### Block transfer and string manipulation -/

/-- CPI, CPD, CPIR, CPDR and their byte forms. Of a repeat form one iteration is one step, after which the PC is back
at the own first word until the form has ended, with the flags written each time: the spec's own choice (D24, D29, log
52). -/
def Obligations.SearchString : Prop :=
  ∀ (s : State) (f cnt d : RegField) (cc : BitVec 4),
    (separate [s.pointerFields f, [cnt], [byteHome d]] = true →
      let v := s.readB d
      let b := s.readByte (s.pointer f)
      SearchClaim (.cpib f cnt d cc) s false v b 1#16 f cnt cc ∧
      SearchClaim (.cpdb f cnt d cc) s false v b (-1#16) f cnt cc ∧
      SearchClaim (.cpirb f cnt d cc) s true v b 1#16 f cnt cc ∧
      SearchClaim (.cpdrb f cnt d cc) s true v b (-1#16) f cnt cc) ∧
    (separate [s.pointerFields f, [cnt], [d]] = true → (s.pointer f).even = true →
      let v := s.readW d
      let b := s.peekWord (s.pointer f)
      SearchClaim (.cpi f cnt d cc) s false v b 2#16 f cnt cc ∧
      SearchClaim (.cpd f cnt d cc) s false v b (-2#16) f cnt cc ∧
      SearchClaim (.cpir f cnt d cc) s true v b 2#16 f cnt cc ∧
      SearchClaim (.cpdr f cnt d cc) s true v b (-2#16) f cnt cc)

/-- CPSI, CPSD, CPSIR, CPSDR and their byte forms; C and S of CPSI as the spec chooses (log 30). Of a repeat form one
iteration is one step, after which the PC is back at the own first word until the form has ended, with the flags
written each time: the spec's own choice (D24, D29, log 52). -/
def Obligations.CompareStrings : Prop :=
  ∀ (s : State) (f cnt d : RegField) (cc : BitVec 4),
    separate [s.pointerFields d, s.pointerFields f, [cnt]] = true →
    (let a := s.readByte (s.pointer d)
     let b := s.readByte (s.pointer f)
     CompareClaim (.cpsib f cnt d cc) s false a b 1#16 f cnt d cc ∧
     CompareClaim (.cpsdb f cnt d cc) s false a b (-1#16) f cnt d cc ∧
     CompareClaim (.cpsirb f cnt d cc) s true a b 1#16 f cnt d cc ∧
     CompareClaim (.cpsdrb f cnt d cc) s true a b (-1#16) f cnt d cc) ∧
    ((s.pointer d).even = true → (s.pointer f).even = true →
      let a := s.peekWord (s.pointer d)
      let b := s.peekWord (s.pointer f)
      CompareClaim (.cpsi f cnt d cc) s false a b 2#16 f cnt d cc ∧
      CompareClaim (.cpsd f cnt d cc) s false a b (-2#16) f cnt d cc ∧
      CompareClaim (.cpsir f cnt d cc) s true a b 2#16 f cnt d cc ∧
      CompareClaim (.cpsdr f cnt d cc) s true a b (-2#16) f cnt d cc)

/-- LDI, LDD, LDIR, LDDR and their byte forms. A repeat form is not to store into its own words, in its last iteration
either (log 20). Of a repeat form one iteration is one step, after which the PC is back at the own first word until
the form has ended, with the flags written each time: the spec's own choice (D24, D29, log 52). -/
def Obligations.MoveBlock : Prop :=
  ∀ (s : State) (f cnt d : RegField), separate [s.pointerFields d, s.pointerFields f, [cnt]] = true →
    MoveClaim (.ldib f cnt d) s false 1 1#16 f cnt d ∧ MoveClaim (.lddb f cnt d) s false 1 (-1#16) f cnt d ∧
    (s.sparesOwnWords (s.pointer d) 1 = true →
      MoveClaim (.ldirb f cnt d) s true 1 1#16 f cnt d ∧ MoveClaim (.lddrb f cnt d) s true 1 (-1#16) f cnt d) ∧
    ((s.pointer d).even = true → (s.pointer f).even = true →
      MoveClaim (.ldi f cnt d) s false 2 2#16 f cnt d ∧ MoveClaim (.ldd f cnt d) s false 2 (-2#16) f cnt d ∧
      (s.sparesOwnWords (s.pointer d) 2 = true →
        MoveClaim (.ldir f cnt d) s true 2 2#16 f cnt d ∧ MoveClaim (.lddr f cnt d) s true 2 (-2#16) f cnt d))

/-- TRIB, TRDB, TRIRB, TRDRB, TRTIB, TRTDB, TRTIRB, TRTDRB; TRIRB and TRDRB are not to store into their own words (log
20). Of a repeat form one iteration is one step, after which the PC is back at the own first word until the form has
ended, with the flags written each time: the spec's own choice (D24, D29, log 52). -/
def Obligations.TranslateString : Prop :=
  ∀ (s : State) (d cnt f : RegField), separate [s.pointerFields d, s.pointerFields f, [cnt], [1#4]] = true →
    TranslateClaim (.trib d cnt f) s false 1#16 d cnt f ∧ TranslateClaim (.trdb d cnt f) s false (-1#16) d cnt f ∧
    (s.sparesOwnWords (s.pointer d) 1 = true →
      TranslateClaim (.trirb d cnt f) s true 1#16 d cnt f ∧ TranslateClaim (.trdrb d cnt f) s true (-1#16) d cnt f) ∧
    TranslateTestClaim (.trtib d cnt f) s false 1#16 d cnt f ∧
    TranslateTestClaim (.trtdb d cnt f) s false (-1#16) d cnt f ∧
    TranslateTestClaim (.trtirb d cnt f) s true 1#16 d cnt f ∧
    TranslateTestClaim (.trtdrb d cnt f) s true (-1#16) d cnt f

/-- 20_memory R73, 60_exceptions R615: where a word or long-word operand, the stack pointer or the PC is odd, the
instruction stops; the model's reading of what the source leaves open (log 6). -/
def Obligations.OddAddressFaults : Prop :=
  ∀ (s : State) (d f : RegField) (b : MemB) (m : Mem) (v : Word) (n : BitVec 4) (disp : Word) (u2 : BitVec 2)
      (u : BitVec 12),
    let odd := fun (is : List Instr) => ∀ i ∈ is, exec i s = .fault .oddWordAccess
    ((s.eaRel disp).even = false →
      odd [.ldrLoad d disp, .ldrStore disp d, .ldrlLoad d disp, .ldrlStore disp d]) ∧
    ((s.eaB b).even = false → odd [.ldLoad d (.mem b), .ldStore b d, .ldlLoad d (.mem b), .ldlStore b d]) ∧
    ((s.ea m).even = false →
      odd [.clr (.mem m), .ex d (.mem m), .ldStoreImm m v, .ldmLoad d m n, .ldmStore m d n, .push f (.mem m),
        .pushl f (.mem m), .add d (.mem m), .addl d (.mem m), .sub d (.mem m), .subl d (.mem m), .cp d (.mem m),
        .cpl d (.mem m), .cpMemImm m v, .inc (.mem m) n, .dec (.mem m) n, .neg (.mem m), .mult d (.mem m),
        .multl d (.mem m), .div d (.mem m), .divl d (.mem m), .and d (.mem m), .or d (.mem m), .xor d (.mem m),
        .com (.mem m), .test (.mem m), .testl (.mem m), .bit (.mem m) n, .res (.mem m) n, .set (.mem m) n,
        .tset (.mem m)] ∧
      (sameField m f = false → odd [.pop (.mem m) f, .popl (.mem m) f]) ∧ (s.fcw.sn = true → odd [.ldps m]) ∧
      (s.fcw.epa = true → (∀ p, m = .ir p → s.segmented = true → pairField p = true) →
        odd [.epaStm m u2 u n, .epaLdm m u2 u n])) ∧
    ((s.pointer f).even = false →
      odd [.push f (.r d), .push f (.im v), .push f (.mem m), .pushl f (.r d), .pushl f (.mem m),
        .pop (.r d) f, .pop (.mem m) f, .popl (.r d) f, .popl (.mem m) f]) ∧
    ((s.pointer s.stackField).even = false →
      (∀ c : BitVec 12, odd [.call m, .calr c]) ∧ (Machine.cond n s.flags = true → odd [.ret n])) ∧
    (s.systemStack.even = false →
      (∀ e id g o, s.trapEntry e id g o = .error (.fault .oddWordAccess)) ∧
      (∀ c : BitVec 8, odd [.sc c]) ∧ (s.fcw.sn = true → (s.cfg.variant = .z8002 ∨ s.fcw.seg = true) → odd [.iret])) ∧
    (s.latch.boundaryEvent = .run → s.latch.pcOff.getLsbD 0 = true → step s = .fault .oddFetch)

/-- Where the block, string and block I/O instructions stop (46_block_string R410, R412, R440, 47_io R482; logs 6, 19
and 20): registers in common, an odd pointer to words, a repeat form that is to store into its own words. -/
def Obligations.BlockFormsStop : Prop :=
  ∀ (s : State) (f cnt d : RegField) (cc : BitVec 4),
    let stop := fun (o : Host.Outcome State Fault Refusal) (is : List Instr) => ∀ i ∈ is, exec i s = o
    let common := Host.Outcome.refused Refusal.registerOverlap
    let own := Host.Outcome.refused Refusal.repeatOverwritesItself
    let odd := Host.Outcome.fault Fault.oddWordAccess
    let moves := separate [s.pointerFields d, s.pointerFields f, [cnt]]
    let searches := separate [s.pointerFields f, [cnt], [d]]
    let ins := separate [s.pointerFields d, [f], [cnt]]
    let outs := separate [s.pointerFields f, [d], [cnt]]
    (separate [s.pointerFields f, [cnt], [byteHome d]] = false →
      stop common [.cpib f cnt d cc, .cpdb f cnt d cc, .cpirb f cnt d cc, .cpdrb f cnt d cc]) ∧
    (searches = false → stop common [.cpi f cnt d cc, .cpd f cnt d cc, .cpir f cnt d cc, .cpdr f cnt d cc]) ∧
    (searches = true → (s.pointer f).even = false →
      stop odd [.cpi f cnt d cc, .cpd f cnt d cc, .cpir f cnt d cc, .cpdr f cnt d cc]) ∧
    (moves = false →
      stop common [.cpsib f cnt d cc, .cpsdb f cnt d cc, .cpsirb f cnt d cc, .cpsdrb f cnt d cc, .cpsi f cnt d cc,
        .cpsd f cnt d cc, .cpsir f cnt d cc, .cpsdr f cnt d cc, .ldib f cnt d, .lddb f cnt d, .ldirb f cnt d,
        .lddrb f cnt d, .ldi f cnt d, .ldd f cnt d, .ldir f cnt d, .lddr f cnt d]) ∧
    (moves = true → ((s.pointer f).even = false ∨ (s.pointer d).even = false) →
      stop odd [.cpsi f cnt d cc, .cpsd f cnt d cc, .cpsir f cnt d cc, .cpsdr f cnt d cc, .ldi f cnt d, .ldd f cnt d] ∧
      (s.sparesOwnWords (s.pointer d) 2 = true → stop odd [.ldir f cnt d, .lddr f cnt d])) ∧
    (moves = true → s.sparesOwnWords (s.pointer d) 1 = false → stop own [.ldirb f cnt d, .lddrb f cnt d]) ∧
    (moves = true → s.sparesOwnWords (s.pointer d) 2 = false → (s.pointer d).even = true → (s.pointer f).even = true →
      stop own [.ldir f cnt d, .lddr f cnt d]) ∧
    (separate [s.pointerFields d, s.pointerFields f, [cnt], [1#4]] = false →
      stop common [.trib d cnt f, .trdb d cnt f, .trirb d cnt f, .trdrb d cnt f, .trtib d cnt f, .trtdb d cnt f,
        .trtirb d cnt f, .trtdrb d cnt f]) ∧
    (separate [s.pointerFields d, s.pointerFields f, [cnt], [1#4]] = true → s.sparesOwnWords (s.pointer d) 1 = false →
      stop own [.trirb d cnt f, .trdrb d cnt f]) ∧
    (s.fcw.sn = true → ins = false →
      stop common [.inib f cnt d, .indb f cnt d, .inirb f cnt d, .indrb f cnt d, .ini f cnt d, .ind f cnt d, .inir f cnt d,
        .indr f cnt d, .sinib f cnt d, .sindb f cnt d, .sinirb f cnt d, .sindrb f cnt d, .sini f cnt d, .sind f cnt d,
        .sinir f cnt d, .sindr f cnt d]) ∧
    (s.fcw.sn = true → ins = true →
      (s.sparesOwnWords (s.pointer d) 1 = false →
        stop own [.inirb f cnt d, .indrb f cnt d, .sinirb f cnt d, .sindrb f cnt d]) ∧
      (s.sparesOwnWords (s.pointer d) 2 = false → (s.pointer d).even = true →
        stop own [.inir f cnt d, .indr f cnt d, .sinir f cnt d, .sindr f cnt d]) ∧
      ((s.pointer d).even = false → stop odd [.ini f cnt d, .ind f cnt d, .sini f cnt d, .sind f cnt d] ∧
        (s.sparesOwnWords (s.pointer d) 2 = true →
          stop odd [.inir f cnt d, .indr f cnt d, .sinir f cnt d, .sindr f cnt d]))) ∧
    (s.fcw.sn = true → outs = false →
      stop common [.outib f cnt d, .outdb f cnt d, .otirb f cnt d, .otdrb f cnt d, .outi f cnt d, .outd f cnt d,
        .otir f cnt d, .otdr f cnt d, .soutib f cnt d, .soutdb f cnt d, .sotirb f cnt d, .sotdrb f cnt d,
        .souti f cnt d, .soutd f cnt d, .sotir f cnt d, .sotdr f cnt d]) ∧
    (s.fcw.sn = true → outs = true → (s.pointer f).even = false →
      stop odd [.outi f cnt d, .outd f cnt d, .otir f cnt d, .otdr f cnt d, .souti f cnt d, .soutd f cnt d,
        .sotir f cnt d, .sotdr f cnt d])

/-! ### Input and output -/

/-- IN, SIN, OUT, SOUT and their byte forms in system mode: one event, no flag. -/
def Obligations.SingleTransfer : Prop :=
  ∀ (s : State) (r : RegField) (p : Port) (w : Word), s.fcw.sn = true →
    let inB := fun (i : Instr) (space : IoSpace) (port : Word) => ∃ v, IsAnswer s false v ∧
      RunsFrom i s (s.afterInput space false port v) [s.slotB r] [] fun t => t.pcSeg = s.pcSeg ∧ t.pcOff = s.pcOff ∧
        t.readB r = v.extractLsb' 0 8 ∧ t.readB (r ^^^ 8#4) = s.readB (r ^^^ 8#4) ∧ t.flags = s.flags
    let inW := fun (i : Instr) (space : IoSpace) (port : Word) => ∃ v, IsAnswer s true v ∧
      RunsFrom i s (s.afterInput space true port v) [s.slot r] [] fun t => t.pcSeg = s.pcSeg ∧ t.pcOff = s.pcOff ∧
        t.readW r = v ∧ t.flags = s.flags
    let outB := fun (i : Instr) (space : IoSpace) (port : Word) =>
      RunsFrom i s (s.afterOutput space false port (0#8 ++ s.readB r)) [] [] fun t =>
        t.pcSeg = s.pcSeg ∧ t.pcOff = s.pcOff ∧ t.flags = s.flags
    let outW := fun (i : Instr) (space : IoSpace) (port : Word) =>
      RunsFrom i s (s.afterOutput space true port (s.readW r)) [] [] fun t =>
        t.pcSeg = s.pcSeg ∧ t.pcOff = s.pcOff ∧ t.flags = s.flags
    inB (.inpb r p) .standard (s.portOf p) ∧ inW (.inp r p) .standard (s.portOf p) ∧
    outB (.outb p r) .standard (s.portOf p) ∧ outW (.out p r) .standard (s.portOf p) ∧
    inB (.sinb r w) .special w ∧ inW (.sin r w) .special w ∧ outB (.soutb w r) .special w ∧
    outW (.sout w r) .special w

/-- INI, IND, INIR, INDR, their special and their byte forms, in system mode; a byte is the low byte of the answer
(log 32), and a repeat form is not to store into its own words (log 20). Of a repeat form one iteration is one step,
after which the PC is back at the own first word until the form has ended, with the flags written each time: the
spec's own choice (D24, D29, log 52). -/
def Obligations.BlockInput : Prop :=
  ∀ (s : State) (f cnt d : RegField), s.fcw.sn = true → separate [s.pointerFields d, [f], [cnt]] = true →
    (InputClaim (.inib f cnt d) s false .standard false 1#16 f cnt d ∧
     InputClaim (.indb f cnt d) s false .standard false (-1#16) f cnt d ∧
     InputClaim (.sinib f cnt d) s false .special false 1#16 f cnt d ∧
     InputClaim (.sindb f cnt d) s false .special false (-1#16) f cnt d) ∧
    (s.sparesOwnWords (s.pointer d) 1 = true →
      InputClaim (.inirb f cnt d) s true .standard false 1#16 f cnt d ∧
      InputClaim (.indrb f cnt d) s true .standard false (-1#16) f cnt d ∧
      InputClaim (.sinirb f cnt d) s true .special false 1#16 f cnt d ∧
      InputClaim (.sindrb f cnt d) s true .special false (-1#16) f cnt d) ∧
    ((s.pointer d).even = true →
      InputClaim (.ini f cnt d) s false .standard true 2#16 f cnt d ∧
      InputClaim (.ind f cnt d) s false .standard true (-2#16) f cnt d ∧
      InputClaim (.sini f cnt d) s false .special true 2#16 f cnt d ∧
      InputClaim (.sind f cnt d) s false .special true (-2#16) f cnt d ∧
      (s.sparesOwnWords (s.pointer d) 2 = true →
        InputClaim (.inir f cnt d) s true .standard true 2#16 f cnt d ∧
        InputClaim (.indr f cnt d) s true .standard true (-2#16) f cnt d ∧
        InputClaim (.sinir f cnt d) s true .special true 2#16 f cnt d ∧
        InputClaim (.sindr f cnt d) s true .special true (-2#16) f cnt d))

/-- OUTI, OUTD, OTIR, OTDR, their special and their byte forms, in system mode. Of a repeat form one iteration is one
step, after which the PC is back at the own first word until the form has ended, with the flags written each time: the
spec's own choice (D24, D29, log 52). -/
def Obligations.BlockOutput : Prop :=
  ∀ (s : State) (f cnt d : RegField), s.fcw.sn = true → separate [s.pointerFields f, [d], [cnt]] = true →
    (OutputClaim (.outib f cnt d) s false .standard false 1#16 f cnt d ∧
     OutputClaim (.outdb f cnt d) s false .standard false (-1#16) f cnt d ∧
     OutputClaim (.soutib f cnt d) s false .special false 1#16 f cnt d ∧
     OutputClaim (.soutdb f cnt d) s false .special false (-1#16) f cnt d ∧
     OutputClaim (.otirb f cnt d) s true .standard false 1#16 f cnt d ∧
     OutputClaim (.otdrb f cnt d) s true .standard false (-1#16) f cnt d ∧
     OutputClaim (.sotirb f cnt d) s true .special false 1#16 f cnt d ∧
     OutputClaim (.sotdrb f cnt d) s true .special false (-1#16) f cnt d) ∧
    ((s.pointer f).even = true →
     OutputClaim (.outi f cnt d) s false .standard true 2#16 f cnt d ∧
     OutputClaim (.outd f cnt d) s false .standard true (-2#16) f cnt d ∧
     OutputClaim (.souti f cnt d) s false .special true 2#16 f cnt d ∧
     OutputClaim (.soutd f cnt d) s false .special true (-2#16) f cnt d ∧
     OutputClaim (.otir f cnt d) s true .standard true 2#16 f cnt d ∧
     OutputClaim (.otdr f cnt d) s true .standard true (-2#16) f cnt d ∧
     OutputClaim (.sotir f cnt d) s true .special true 2#16 f cnt d ∧
     OutputClaim (.sotdr f cnt d) s true .special true (-2#16) f cnt d)

/-! ### CPU control -/

/-- COMFLG, RESFLG, SETFLG, NOP and LDCTLB in both directions, in either mode. -/
def Obligations.FlagInstructions : Prop :=
  ∀ (s : State) (m : BitVec 4) (r : RegField),
    let f := s.flags
    (Runs (.comflg m) s [] [] fun t => ∃ h, t.flags =
      { f with c := f.c ^^ m.getLsbD 3, z := f.z ^^ m.getLsbD 2, s := f.s ^^ m.getLsbD 1, pv := f.pv ^^ m.getLsbD 0,
               h := h }) ∧
    (Runs (.resflg m) s [] [] fun t => t.flags.toByte = f.toByte &&& ~~~(m ++ 0#4)) ∧
    (Runs (.setflg m) s [] [] fun t => t.flags.toByte = f.toByte ||| (m ++ 0#4)) ∧
    (Runs .nop s [] [] fun t => t = s) ∧
    (Runs (.ldctlbWrite r) s [] [] fun t => t.flags.toByte = s.readB r &&& 0xFC#8) ∧
    Runs (.ldctlbRead r) s [s.slotB r] [] fun t =>
      t.flags = f ∧ t.readB r = f.toByte ∧ t.readB (r ^^^ 8#4) = s.readB (r ^^^ 8#4)

/-- DI, EI, HALT, MRES, MSET in system mode, each the whole next state; LDPS from an even address, the block in the
format of the segmentation mode. -/
def Obligations.ControlInstructions : Prop :=
  ∀ (s : State) (vn : BitVec 2) (m : Mem), s.fcw.sn = true →
    exec (.di vn) s = .next (s.setFcw { s.fcw with
      vie := s.fcw.vie && vn.getLsbD 1, nvie := s.fcw.nvie && vn.getLsbD 0 }) ∧
    exec (.ei vn) s = .next (s.setFcw { s.fcw with
      vie := s.fcw.vie || !vn.getLsbD 1, nvie := s.fcw.nvie || !vn.getLsbD 0 }) ∧
    exec .halt s = .next (s.setHalted true) ∧ exec .mres s = .next (s.setMoHigh true) ∧
    exec .mset s = .next (s.setMoHigh false) ∧
    ((s.ea m).even = true → s.segmented = false → exec (.ldps m) s =
      .next ((s.setFcw (Fcw.ofWord s.cfg.variant (s.peekWord (s.ea m)))).setPcOff (s.peekWord ((s.ea m).add 2#16)))) ∧
    ((s.ea m).even = true → s.segmented = true → exec (.ldps m) s =
      .next ((s.setFcw (Fcw.ofWord s.cfg.variant (s.peekWord ((s.ea m).add 2#16)))).setPc
        ((s.peekWord ((s.ea m).add 4#16)).extractLsb' 8 7) (s.peekWord ((s.ea m).add 6#16))))

/-- LDCTL in system mode: every register the variant and the mode have, in both directions; undefined bits read as
anything, and the two absent registers are refused. -/
def Obligations.LoadControl : Prop :=
  ∀ (s : State) (r : RegField), s.fcw.sn = true →
    let z1 := s.cfg.variant = .z8001
    let w := s.readW r
    (∀ c, (c = .psapseg → z1) → (c = .nspseg → s.segmented = true) →
      Runs (.ldctlRead r c) s [s.slot r] [] fun t => t.flags = s.flags ∧
        (c = .fcw → t.readW r &&& 0xF8FC#16 = s.fcw.toWord s.cfg.variant) ∧
        (c = .refresh → (t.readW r).extractLsb' 1 8 = s.refresh.extractLsb' 0 8) ∧
        (c = .psapseg → (t.readW r).extractLsb' 8 7 = s.psapSeg) ∧
        (c = .psapoff → (t.readW r).extractLsb' 8 8 = s.psapOff) ∧
        (c = .nspseg → t.readW r = s.regs.get 16) ∧ (c = .nspoff → t.readW r = s.regs.get 17)) ∧
    exec (.ldctlWrite .fcw r) s = .next (s.setFcw (Fcw.ofWord s.cfg.variant w)) ∧
    exec (.ldctlWrite .refresh r) s = .next (s.setRefresh (w.extractLsb' 1 15)) ∧
    (z1 → exec (.ldctlWrite .psapseg r) s = .next (s.setPsapSeg (w.extractLsb' 8 7))) ∧
    exec (.ldctlWrite .psapoff r) s = .next (s.setPsapOff (w.extractLsb' 8 8)) ∧
    (s.segmented = true → Runs (.ldctlWrite .nspseg r) s [16] [] fun t => t.regs.get 16 = w ∧ t.flags = s.flags) ∧
    (Runs (.ldctlWrite .nspoff r) s [17] [] fun t => t.regs.get 17 = w ∧ t.flags = s.flags) ∧
    (¬ z1 → exec (.ldctlRead r .psapseg) s = .refused .controlRegisterAbsent ∧
      exec (.ldctlWrite .psapseg r) s = .refused .controlRegisterAbsent) ∧
    (s.segmented = false → exec (.ldctlRead r .nspseg) s = .refused .controlRegisterAbsent ∧
      exec (.ldctlWrite .nspseg r) s = .refused .controlRegisterAbsent)

/-- MBIT and MREQ in system mode, for the levels of MI that the environment gives (true is high; D22, log 43). -/
def Obligations.MultiMicro : Prop :=
  ∀ (s : State) (d : RegField), s.fcw.sn = true →
    let stays := fun (t : State) => t.pcSeg = s.pcSeg ∧ t.pcOff = s.pcOff
    (∀ m rest, s.miIn = m :: rest → ∃ z, RunsFrom .mbit s (s.setMiIn rest) [] [] fun t => stays t ∧
      t.flags = { s.flags with s := m, z := z }) ∧
    (∀ rest, s.miIn = false :: rest → RunsFrom (.mreq d) s ((s.setMiIn rest).setMoHigh true) [] [] fun t => stays t ∧
      t.flags = { s.flags with s := false, z := false }) ∧
    (∀ m rest, s.miIn = true :: m :: rest →
      RunsFrom (.mreq d) s ((s.setMiIn rest).setMoHigh m) [s.slot d] [] fun t => stays t ∧ t.readW d = 0#16 ∧
        t.flags = { s.flags with s := !m, z := true })

/-! ### Extended instructions -/

/-- The templates with EPA = 1: EPA_STM and EPA_LDM (a pair as address register in segmented mode, an even address),
EPA_LDR and EPA_STR, EPA_LDF (R0 open), EPA_STF, EPA_OP. What the EPU gives is the environment's, open without an
EPU; what it is given is recorded. An extended opcode of no template is refused (log 17), as is an odd pair (log 44). -/
def Obligations.ExtendedTransfers : Prop :=
  ∀ (s : State) (n : BitVec 4) (r : RegField) (u2 : BitVec 2) (u3 u4 : BitVec 4) (v : BitVec 3) (x w1 : Word)
      (tail : EpaTail), s.fcw.epa = true →
    let k := n.toNat + 1
    let given := fun (j : Nat) (v : Word) => s.cfg.epuPresent = true ∧ s.epuIn[j]? = some v
    let used := fun (j : Nat) => if s.cfg.epuPresent then s.setEpuIn (s.epuIn.drop j) else s
    let told := fun (f : Nat → Word) => s.setEpuLog (s.epuLog ++ (List.range k).map fun j => EpuEvent.word (f j))
    let stays := fun (t : State) => t.pcSeg = s.pcSeg ∧ t.pcOff = s.pcOff ∧ t.flags = s.flags
    (∀ m u, (s.ea m).even = true → (∀ p, m = .ir p → s.segmented = true → pairField p = true) →
      (RunsFrom (.epaStm m u2 u n) s (used k) [] ((s.ea m).bytes (2 * k)) fun t => stays t ∧
        ∀ j < k, ∀ w, given j w → t.peekWord ((s.ea m).add (BitVec.ofNat 16 (2 * j))) = w) ∧
      exec (.epaLdm m u2 u n) s =
        .next (told fun j => s.peekWord ((s.ea m).add (BitVec.ofNat 16 (2 * j))))) ∧
    (RunsFrom (.epaLdr v u2 u3 r u4 n) s (used k) ((List.range k).map fun j => s.slot (r + BitVec.ofNat 4 j)) []
      fun t => stays t ∧ ∀ j < k, ∀ w, given j w → t.readW (r + BitVec.ofNat 4 j) = w) ∧
    exec (.epaStr v u2 u3 r u4 n) s = .next (told fun j => s.readW (r + BitVec.ofNat 4 j)) ∧
    (RunsFrom (.epaLdf u3 u2 u4 n) s (used 1) [s.slot 0#4] [] fun t => t.pcSeg = s.pcSeg ∧ t.pcOff = s.pcOff ∧
      ∀ w, given 0 w → t.flags.toByte = w.extractLsb' 0 8 &&& 0xFC#8) ∧
    exec (.epaStf u3 u2 u4 n) s = .next (s.setEpuLog (s.epuLog ++ [.flags s.flags.toByte])) ∧
    exec (.epaOp u3 u2 x) s = .next s ∧ exec (.epaOther w1 tail) s = .refused .epaNoTemplate ∧
    (∀ p u, s.segmented = true → pairField p = false →
      exec (.epaStm (.ir p) u2 u n) s = .refused .epaOddPair ∧ exec (.epaLdm (.ir p) u2 u n) s = .refused .epaOddPair)

end
end

