-- ==== Sys2Proof/Laws/State.lean ====
section
/-! SUPPORT. Every field after every named update of the state, so that no proof unfolds a record update. -/

namespace Sys2Proof.Machine

@[simp] theorem State.setRegs_cfg (s : State) (v : Vector Word 18) : (s.setRegs v).cfg = s.cfg := rfl
@[simp] theorem State.setRegs_regs (s : State) (v : Vector Word 18) : (s.setRegs v).regs = v := rfl
@[simp] theorem State.setRegs_pcSeg (s : State) (v : Vector Word 18) : (s.setRegs v).pcSeg = s.pcSeg := rfl
@[simp] theorem State.setRegs_pcOff (s : State) (v : Vector Word 18) : (s.setRegs v).pcOff = s.pcOff := rfl
@[simp] theorem State.setRegs_fcw (s : State) (v : Vector Word 18) : (s.setRegs v).fcw = s.fcw := rfl
@[simp] theorem State.setRegs_psapSeg (s : State) (v : Vector Word 18) : (s.setRegs v).psapSeg = s.psapSeg := rfl
@[simp] theorem State.setRegs_psapOff (s : State) (v : Vector Word 18) : (s.setRegs v).psapOff = s.psapOff := rfl
@[simp] theorem State.setRegs_refresh (s : State) (v : Vector Word 18) : (s.setRegs v).refresh = s.refresh := rfl
@[simp] theorem State.setRegs_moHigh (s : State) (v : Vector Word 18) : (s.setRegs v).moHigh = s.moHigh := rfl
@[simp] theorem State.setRegs_halted (s : State) (v : Vector Word 18) : (s.setRegs v).halted = s.halted := rfl
@[simp] theorem State.setRegs_nmiPending (s : State) (v : Vector Word 18) : (s.setRegs v).nmiPending = s.nmiPending := rfl
@[simp] theorem State.setRegs_segtrapRequest (s : State) (v : Vector Word 18) : (s.setRegs v).segtrapRequest = s.segtrapRequest := rfl
@[simp] theorem State.setRegs_viRequest (s : State) (v : Vector Word 18) : (s.setRegs v).viRequest = s.viRequest := rfl
@[simp] theorem State.setRegs_nviRequest (s : State) (v : Vector Word 18) : (s.setRegs v).nviRequest = s.nviRequest := rfl
@[simp] theorem State.setRegs_resetRequest (s : State) (v : Vector Word 18) : (s.setRegs v).resetRequest = s.resetRequest := rfl
@[simp] theorem State.setRegs_arrivals (s : State) (v : Vector Word 18) : (s.setRegs v).arrivals = s.arrivals := rfl
@[simp] theorem State.setRegs_idIn (s : State) (v : Vector Word 18) : (s.setRegs v).idIn = s.idIn := rfl
@[simp] theorem State.setRegs_ioIn (s : State) (v : Vector Word 18) : (s.setRegs v).ioIn = s.ioIn := rfl
@[simp] theorem State.setRegs_epuIn (s : State) (v : Vector Word 18) : (s.setRegs v).epuIn = s.epuIn := rfl
@[simp] theorem State.setRegs_miIn (s : State) (v : Vector Word 18) : (s.setRegs v).miIn = s.miIn := rfl
@[simp] theorem State.setRegs_ioLog (s : State) (v : Vector Word 18) : (s.setRegs v).ioLog = s.ioLog := rfl
@[simp] theorem State.setRegs_epuLog (s : State) (v : Vector Word 18) : (s.setRegs v).epuLog = s.epuLog := rfl
@[simp] theorem State.setRegs_freeCount (s : State) (v : Vector Word 18) : (s.setRegs v).freeCount = s.freeCount := rfl
@[simp] theorem State.setRegs_mem (s : State) (v : Vector Word 18) : (s.setRegs v).mem = s.mem := rfl

@[simp] theorem State.setPcOff_cfg (s : State) (v : Word) : (s.setPcOff v).cfg = s.cfg := rfl
@[simp] theorem State.setPcOff_regs (s : State) (v : Word) : (s.setPcOff v).regs = s.regs := rfl
@[simp] theorem State.setPcOff_pcSeg (s : State) (v : Word) : (s.setPcOff v).pcSeg = s.pcSeg := rfl
@[simp] theorem State.setPcOff_pcOff (s : State) (v : Word) : (s.setPcOff v).pcOff = v := rfl
@[simp] theorem State.setPcOff_fcw (s : State) (v : Word) : (s.setPcOff v).fcw = s.fcw := rfl
@[simp] theorem State.setPcOff_psapSeg (s : State) (v : Word) : (s.setPcOff v).psapSeg = s.psapSeg := rfl
@[simp] theorem State.setPcOff_psapOff (s : State) (v : Word) : (s.setPcOff v).psapOff = s.psapOff := rfl
@[simp] theorem State.setPcOff_refresh (s : State) (v : Word) : (s.setPcOff v).refresh = s.refresh := rfl
@[simp] theorem State.setPcOff_moHigh (s : State) (v : Word) : (s.setPcOff v).moHigh = s.moHigh := rfl
@[simp] theorem State.setPcOff_halted (s : State) (v : Word) : (s.setPcOff v).halted = s.halted := rfl
@[simp] theorem State.setPcOff_nmiPending (s : State) (v : Word) : (s.setPcOff v).nmiPending = s.nmiPending := rfl
@[simp] theorem State.setPcOff_segtrapRequest (s : State) (v : Word) : (s.setPcOff v).segtrapRequest = s.segtrapRequest := rfl
@[simp] theorem State.setPcOff_viRequest (s : State) (v : Word) : (s.setPcOff v).viRequest = s.viRequest := rfl
@[simp] theorem State.setPcOff_nviRequest (s : State) (v : Word) : (s.setPcOff v).nviRequest = s.nviRequest := rfl
@[simp] theorem State.setPcOff_resetRequest (s : State) (v : Word) : (s.setPcOff v).resetRequest = s.resetRequest := rfl
@[simp] theorem State.setPcOff_arrivals (s : State) (v : Word) : (s.setPcOff v).arrivals = s.arrivals := rfl
@[simp] theorem State.setPcOff_idIn (s : State) (v : Word) : (s.setPcOff v).idIn = s.idIn := rfl
@[simp] theorem State.setPcOff_ioIn (s : State) (v : Word) : (s.setPcOff v).ioIn = s.ioIn := rfl
@[simp] theorem State.setPcOff_epuIn (s : State) (v : Word) : (s.setPcOff v).epuIn = s.epuIn := rfl
@[simp] theorem State.setPcOff_miIn (s : State) (v : Word) : (s.setPcOff v).miIn = s.miIn := rfl
@[simp] theorem State.setPcOff_ioLog (s : State) (v : Word) : (s.setPcOff v).ioLog = s.ioLog := rfl
@[simp] theorem State.setPcOff_epuLog (s : State) (v : Word) : (s.setPcOff v).epuLog = s.epuLog := rfl
@[simp] theorem State.setPcOff_freeCount (s : State) (v : Word) : (s.setPcOff v).freeCount = s.freeCount := rfl
@[simp] theorem State.setPcOff_mem (s : State) (v : Word) : (s.setPcOff v).mem = s.mem := rfl

@[simp] theorem State.setFcw_cfg (s : State) (v : Fcw) : (s.setFcw v).cfg = s.cfg := rfl
@[simp] theorem State.setFcw_regs (s : State) (v : Fcw) : (s.setFcw v).regs = s.regs := rfl
@[simp] theorem State.setFcw_pcSeg (s : State) (v : Fcw) : (s.setFcw v).pcSeg = s.pcSeg := rfl
@[simp] theorem State.setFcw_pcOff (s : State) (v : Fcw) : (s.setFcw v).pcOff = s.pcOff := rfl
@[simp] theorem State.setFcw_fcw (s : State) (v : Fcw) : (s.setFcw v).fcw = v := rfl
@[simp] theorem State.setFcw_psapSeg (s : State) (v : Fcw) : (s.setFcw v).psapSeg = s.psapSeg := rfl
@[simp] theorem State.setFcw_psapOff (s : State) (v : Fcw) : (s.setFcw v).psapOff = s.psapOff := rfl
@[simp] theorem State.setFcw_refresh (s : State) (v : Fcw) : (s.setFcw v).refresh = s.refresh := rfl
@[simp] theorem State.setFcw_moHigh (s : State) (v : Fcw) : (s.setFcw v).moHigh = s.moHigh := rfl
@[simp] theorem State.setFcw_halted (s : State) (v : Fcw) : (s.setFcw v).halted = s.halted := rfl
@[simp] theorem State.setFcw_nmiPending (s : State) (v : Fcw) : (s.setFcw v).nmiPending = s.nmiPending := rfl
@[simp] theorem State.setFcw_segtrapRequest (s : State) (v : Fcw) : (s.setFcw v).segtrapRequest = s.segtrapRequest := rfl
@[simp] theorem State.setFcw_viRequest (s : State) (v : Fcw) : (s.setFcw v).viRequest = s.viRequest := rfl
@[simp] theorem State.setFcw_nviRequest (s : State) (v : Fcw) : (s.setFcw v).nviRequest = s.nviRequest := rfl
@[simp] theorem State.setFcw_resetRequest (s : State) (v : Fcw) : (s.setFcw v).resetRequest = s.resetRequest := rfl
@[simp] theorem State.setFcw_arrivals (s : State) (v : Fcw) : (s.setFcw v).arrivals = s.arrivals := rfl
@[simp] theorem State.setFcw_idIn (s : State) (v : Fcw) : (s.setFcw v).idIn = s.idIn := rfl
@[simp] theorem State.setFcw_ioIn (s : State) (v : Fcw) : (s.setFcw v).ioIn = s.ioIn := rfl
@[simp] theorem State.setFcw_epuIn (s : State) (v : Fcw) : (s.setFcw v).epuIn = s.epuIn := rfl
@[simp] theorem State.setFcw_miIn (s : State) (v : Fcw) : (s.setFcw v).miIn = s.miIn := rfl
@[simp] theorem State.setFcw_ioLog (s : State) (v : Fcw) : (s.setFcw v).ioLog = s.ioLog := rfl
@[simp] theorem State.setFcw_epuLog (s : State) (v : Fcw) : (s.setFcw v).epuLog = s.epuLog := rfl
@[simp] theorem State.setFcw_freeCount (s : State) (v : Fcw) : (s.setFcw v).freeCount = s.freeCount := rfl
@[simp] theorem State.setFcw_mem (s : State) (v : Fcw) : (s.setFcw v).mem = s.mem := rfl

@[simp] theorem State.setPsapSeg_cfg (s : State) (v : BitVec 7) : (s.setPsapSeg v).cfg = s.cfg := rfl
@[simp] theorem State.setPsapSeg_regs (s : State) (v : BitVec 7) : (s.setPsapSeg v).regs = s.regs := rfl
@[simp] theorem State.setPsapSeg_pcSeg (s : State) (v : BitVec 7) : (s.setPsapSeg v).pcSeg = s.pcSeg := rfl
@[simp] theorem State.setPsapSeg_pcOff (s : State) (v : BitVec 7) : (s.setPsapSeg v).pcOff = s.pcOff := rfl
@[simp] theorem State.setPsapSeg_fcw (s : State) (v : BitVec 7) : (s.setPsapSeg v).fcw = s.fcw := rfl
@[simp] theorem State.setPsapSeg_psapSeg (s : State) (v : BitVec 7) : (s.setPsapSeg v).psapSeg = v := rfl
@[simp] theorem State.setPsapSeg_psapOff (s : State) (v : BitVec 7) : (s.setPsapSeg v).psapOff = s.psapOff := rfl
@[simp] theorem State.setPsapSeg_refresh (s : State) (v : BitVec 7) : (s.setPsapSeg v).refresh = s.refresh := rfl
@[simp] theorem State.setPsapSeg_moHigh (s : State) (v : BitVec 7) : (s.setPsapSeg v).moHigh = s.moHigh := rfl
@[simp] theorem State.setPsapSeg_halted (s : State) (v : BitVec 7) : (s.setPsapSeg v).halted = s.halted := rfl
@[simp] theorem State.setPsapSeg_nmiPending (s : State) (v : BitVec 7) : (s.setPsapSeg v).nmiPending = s.nmiPending := rfl
@[simp] theorem State.setPsapSeg_segtrapRequest (s : State) (v : BitVec 7) : (s.setPsapSeg v).segtrapRequest = s.segtrapRequest := rfl
@[simp] theorem State.setPsapSeg_viRequest (s : State) (v : BitVec 7) : (s.setPsapSeg v).viRequest = s.viRequest := rfl
@[simp] theorem State.setPsapSeg_nviRequest (s : State) (v : BitVec 7) : (s.setPsapSeg v).nviRequest = s.nviRequest := rfl
@[simp] theorem State.setPsapSeg_resetRequest (s : State) (v : BitVec 7) : (s.setPsapSeg v).resetRequest = s.resetRequest := rfl
@[simp] theorem State.setPsapSeg_arrivals (s : State) (v : BitVec 7) : (s.setPsapSeg v).arrivals = s.arrivals := rfl
@[simp] theorem State.setPsapSeg_idIn (s : State) (v : BitVec 7) : (s.setPsapSeg v).idIn = s.idIn := rfl
@[simp] theorem State.setPsapSeg_ioIn (s : State) (v : BitVec 7) : (s.setPsapSeg v).ioIn = s.ioIn := rfl
@[simp] theorem State.setPsapSeg_epuIn (s : State) (v : BitVec 7) : (s.setPsapSeg v).epuIn = s.epuIn := rfl
@[simp] theorem State.setPsapSeg_miIn (s : State) (v : BitVec 7) : (s.setPsapSeg v).miIn = s.miIn := rfl
@[simp] theorem State.setPsapSeg_ioLog (s : State) (v : BitVec 7) : (s.setPsapSeg v).ioLog = s.ioLog := rfl
@[simp] theorem State.setPsapSeg_epuLog (s : State) (v : BitVec 7) : (s.setPsapSeg v).epuLog = s.epuLog := rfl
@[simp] theorem State.setPsapSeg_freeCount (s : State) (v : BitVec 7) : (s.setPsapSeg v).freeCount = s.freeCount := rfl
@[simp] theorem State.setPsapSeg_mem (s : State) (v : BitVec 7) : (s.setPsapSeg v).mem = s.mem := rfl

@[simp] theorem State.setPsapOff_cfg (s : State) (v : BitVec 8) : (s.setPsapOff v).cfg = s.cfg := rfl
@[simp] theorem State.setPsapOff_regs (s : State) (v : BitVec 8) : (s.setPsapOff v).regs = s.regs := rfl
@[simp] theorem State.setPsapOff_pcSeg (s : State) (v : BitVec 8) : (s.setPsapOff v).pcSeg = s.pcSeg := rfl
@[simp] theorem State.setPsapOff_pcOff (s : State) (v : BitVec 8) : (s.setPsapOff v).pcOff = s.pcOff := rfl
@[simp] theorem State.setPsapOff_fcw (s : State) (v : BitVec 8) : (s.setPsapOff v).fcw = s.fcw := rfl
@[simp] theorem State.setPsapOff_psapSeg (s : State) (v : BitVec 8) : (s.setPsapOff v).psapSeg = s.psapSeg := rfl
@[simp] theorem State.setPsapOff_psapOff (s : State) (v : BitVec 8) : (s.setPsapOff v).psapOff = v := rfl
@[simp] theorem State.setPsapOff_refresh (s : State) (v : BitVec 8) : (s.setPsapOff v).refresh = s.refresh := rfl
@[simp] theorem State.setPsapOff_moHigh (s : State) (v : BitVec 8) : (s.setPsapOff v).moHigh = s.moHigh := rfl
@[simp] theorem State.setPsapOff_halted (s : State) (v : BitVec 8) : (s.setPsapOff v).halted = s.halted := rfl
@[simp] theorem State.setPsapOff_nmiPending (s : State) (v : BitVec 8) : (s.setPsapOff v).nmiPending = s.nmiPending := rfl
@[simp] theorem State.setPsapOff_segtrapRequest (s : State) (v : BitVec 8) : (s.setPsapOff v).segtrapRequest = s.segtrapRequest := rfl
@[simp] theorem State.setPsapOff_viRequest (s : State) (v : BitVec 8) : (s.setPsapOff v).viRequest = s.viRequest := rfl
@[simp] theorem State.setPsapOff_nviRequest (s : State) (v : BitVec 8) : (s.setPsapOff v).nviRequest = s.nviRequest := rfl
@[simp] theorem State.setPsapOff_resetRequest (s : State) (v : BitVec 8) : (s.setPsapOff v).resetRequest = s.resetRequest := rfl
@[simp] theorem State.setPsapOff_arrivals (s : State) (v : BitVec 8) : (s.setPsapOff v).arrivals = s.arrivals := rfl
@[simp] theorem State.setPsapOff_idIn (s : State) (v : BitVec 8) : (s.setPsapOff v).idIn = s.idIn := rfl
@[simp] theorem State.setPsapOff_ioIn (s : State) (v : BitVec 8) : (s.setPsapOff v).ioIn = s.ioIn := rfl
@[simp] theorem State.setPsapOff_epuIn (s : State) (v : BitVec 8) : (s.setPsapOff v).epuIn = s.epuIn := rfl
@[simp] theorem State.setPsapOff_miIn (s : State) (v : BitVec 8) : (s.setPsapOff v).miIn = s.miIn := rfl
@[simp] theorem State.setPsapOff_ioLog (s : State) (v : BitVec 8) : (s.setPsapOff v).ioLog = s.ioLog := rfl
@[simp] theorem State.setPsapOff_epuLog (s : State) (v : BitVec 8) : (s.setPsapOff v).epuLog = s.epuLog := rfl
@[simp] theorem State.setPsapOff_freeCount (s : State) (v : BitVec 8) : (s.setPsapOff v).freeCount = s.freeCount := rfl
@[simp] theorem State.setPsapOff_mem (s : State) (v : BitVec 8) : (s.setPsapOff v).mem = s.mem := rfl

@[simp] theorem State.setRefresh_cfg (s : State) (v : BitVec 15) : (s.setRefresh v).cfg = s.cfg := rfl
@[simp] theorem State.setRefresh_regs (s : State) (v : BitVec 15) : (s.setRefresh v).regs = s.regs := rfl
@[simp] theorem State.setRefresh_pcSeg (s : State) (v : BitVec 15) : (s.setRefresh v).pcSeg = s.pcSeg := rfl
@[simp] theorem State.setRefresh_pcOff (s : State) (v : BitVec 15) : (s.setRefresh v).pcOff = s.pcOff := rfl
@[simp] theorem State.setRefresh_fcw (s : State) (v : BitVec 15) : (s.setRefresh v).fcw = s.fcw := rfl
@[simp] theorem State.setRefresh_psapSeg (s : State) (v : BitVec 15) : (s.setRefresh v).psapSeg = s.psapSeg := rfl
@[simp] theorem State.setRefresh_psapOff (s : State) (v : BitVec 15) : (s.setRefresh v).psapOff = s.psapOff := rfl
@[simp] theorem State.setRefresh_refresh (s : State) (v : BitVec 15) : (s.setRefresh v).refresh = v := rfl
@[simp] theorem State.setRefresh_moHigh (s : State) (v : BitVec 15) : (s.setRefresh v).moHigh = s.moHigh := rfl
@[simp] theorem State.setRefresh_halted (s : State) (v : BitVec 15) : (s.setRefresh v).halted = s.halted := rfl
@[simp] theorem State.setRefresh_nmiPending (s : State) (v : BitVec 15) : (s.setRefresh v).nmiPending = s.nmiPending := rfl
@[simp] theorem State.setRefresh_segtrapRequest (s : State) (v : BitVec 15) : (s.setRefresh v).segtrapRequest = s.segtrapRequest := rfl
@[simp] theorem State.setRefresh_viRequest (s : State) (v : BitVec 15) : (s.setRefresh v).viRequest = s.viRequest := rfl
@[simp] theorem State.setRefresh_nviRequest (s : State) (v : BitVec 15) : (s.setRefresh v).nviRequest = s.nviRequest := rfl
@[simp] theorem State.setRefresh_resetRequest (s : State) (v : BitVec 15) : (s.setRefresh v).resetRequest = s.resetRequest := rfl
@[simp] theorem State.setRefresh_arrivals (s : State) (v : BitVec 15) : (s.setRefresh v).arrivals = s.arrivals := rfl
@[simp] theorem State.setRefresh_idIn (s : State) (v : BitVec 15) : (s.setRefresh v).idIn = s.idIn := rfl
@[simp] theorem State.setRefresh_ioIn (s : State) (v : BitVec 15) : (s.setRefresh v).ioIn = s.ioIn := rfl
@[simp] theorem State.setRefresh_epuIn (s : State) (v : BitVec 15) : (s.setRefresh v).epuIn = s.epuIn := rfl
@[simp] theorem State.setRefresh_miIn (s : State) (v : BitVec 15) : (s.setRefresh v).miIn = s.miIn := rfl
@[simp] theorem State.setRefresh_ioLog (s : State) (v : BitVec 15) : (s.setRefresh v).ioLog = s.ioLog := rfl
@[simp] theorem State.setRefresh_epuLog (s : State) (v : BitVec 15) : (s.setRefresh v).epuLog = s.epuLog := rfl
@[simp] theorem State.setRefresh_freeCount (s : State) (v : BitVec 15) : (s.setRefresh v).freeCount = s.freeCount := rfl
@[simp] theorem State.setRefresh_mem (s : State) (v : BitVec 15) : (s.setRefresh v).mem = s.mem := rfl

@[simp] theorem State.setMoHigh_cfg (s : State) (v : Bool) : (s.setMoHigh v).cfg = s.cfg := rfl
@[simp] theorem State.setMoHigh_regs (s : State) (v : Bool) : (s.setMoHigh v).regs = s.regs := rfl
@[simp] theorem State.setMoHigh_pcSeg (s : State) (v : Bool) : (s.setMoHigh v).pcSeg = s.pcSeg := rfl
@[simp] theorem State.setMoHigh_pcOff (s : State) (v : Bool) : (s.setMoHigh v).pcOff = s.pcOff := rfl
@[simp] theorem State.setMoHigh_fcw (s : State) (v : Bool) : (s.setMoHigh v).fcw = s.fcw := rfl
@[simp] theorem State.setMoHigh_psapSeg (s : State) (v : Bool) : (s.setMoHigh v).psapSeg = s.psapSeg := rfl
@[simp] theorem State.setMoHigh_psapOff (s : State) (v : Bool) : (s.setMoHigh v).psapOff = s.psapOff := rfl
@[simp] theorem State.setMoHigh_refresh (s : State) (v : Bool) : (s.setMoHigh v).refresh = s.refresh := rfl
@[simp] theorem State.setMoHigh_moHigh (s : State) (v : Bool) : (s.setMoHigh v).moHigh = v := rfl
@[simp] theorem State.setMoHigh_halted (s : State) (v : Bool) : (s.setMoHigh v).halted = s.halted := rfl
@[simp] theorem State.setMoHigh_nmiPending (s : State) (v : Bool) : (s.setMoHigh v).nmiPending = s.nmiPending := rfl
@[simp] theorem State.setMoHigh_segtrapRequest (s : State) (v : Bool) : (s.setMoHigh v).segtrapRequest = s.segtrapRequest := rfl
@[simp] theorem State.setMoHigh_viRequest (s : State) (v : Bool) : (s.setMoHigh v).viRequest = s.viRequest := rfl
@[simp] theorem State.setMoHigh_nviRequest (s : State) (v : Bool) : (s.setMoHigh v).nviRequest = s.nviRequest := rfl
@[simp] theorem State.setMoHigh_resetRequest (s : State) (v : Bool) : (s.setMoHigh v).resetRequest = s.resetRequest := rfl
@[simp] theorem State.setMoHigh_arrivals (s : State) (v : Bool) : (s.setMoHigh v).arrivals = s.arrivals := rfl
@[simp] theorem State.setMoHigh_idIn (s : State) (v : Bool) : (s.setMoHigh v).idIn = s.idIn := rfl
@[simp] theorem State.setMoHigh_ioIn (s : State) (v : Bool) : (s.setMoHigh v).ioIn = s.ioIn := rfl
@[simp] theorem State.setMoHigh_epuIn (s : State) (v : Bool) : (s.setMoHigh v).epuIn = s.epuIn := rfl
@[simp] theorem State.setMoHigh_miIn (s : State) (v : Bool) : (s.setMoHigh v).miIn = s.miIn := rfl
@[simp] theorem State.setMoHigh_ioLog (s : State) (v : Bool) : (s.setMoHigh v).ioLog = s.ioLog := rfl
@[simp] theorem State.setMoHigh_epuLog (s : State) (v : Bool) : (s.setMoHigh v).epuLog = s.epuLog := rfl
@[simp] theorem State.setMoHigh_freeCount (s : State) (v : Bool) : (s.setMoHigh v).freeCount = s.freeCount := rfl
@[simp] theorem State.setMoHigh_mem (s : State) (v : Bool) : (s.setMoHigh v).mem = s.mem := rfl

@[simp] theorem State.setHalted_cfg (s : State) (v : Bool) : (s.setHalted v).cfg = s.cfg := rfl
@[simp] theorem State.setHalted_regs (s : State) (v : Bool) : (s.setHalted v).regs = s.regs := rfl
@[simp] theorem State.setHalted_pcSeg (s : State) (v : Bool) : (s.setHalted v).pcSeg = s.pcSeg := rfl
@[simp] theorem State.setHalted_pcOff (s : State) (v : Bool) : (s.setHalted v).pcOff = s.pcOff := rfl
@[simp] theorem State.setHalted_fcw (s : State) (v : Bool) : (s.setHalted v).fcw = s.fcw := rfl
@[simp] theorem State.setHalted_psapSeg (s : State) (v : Bool) : (s.setHalted v).psapSeg = s.psapSeg := rfl
@[simp] theorem State.setHalted_psapOff (s : State) (v : Bool) : (s.setHalted v).psapOff = s.psapOff := rfl
@[simp] theorem State.setHalted_refresh (s : State) (v : Bool) : (s.setHalted v).refresh = s.refresh := rfl
@[simp] theorem State.setHalted_moHigh (s : State) (v : Bool) : (s.setHalted v).moHigh = s.moHigh := rfl
@[simp] theorem State.setHalted_halted (s : State) (v : Bool) : (s.setHalted v).halted = v := rfl
@[simp] theorem State.setHalted_nmiPending (s : State) (v : Bool) : (s.setHalted v).nmiPending = s.nmiPending := rfl
@[simp] theorem State.setHalted_segtrapRequest (s : State) (v : Bool) : (s.setHalted v).segtrapRequest = s.segtrapRequest := rfl
@[simp] theorem State.setHalted_viRequest (s : State) (v : Bool) : (s.setHalted v).viRequest = s.viRequest := rfl
@[simp] theorem State.setHalted_nviRequest (s : State) (v : Bool) : (s.setHalted v).nviRequest = s.nviRequest := rfl
@[simp] theorem State.setHalted_resetRequest (s : State) (v : Bool) : (s.setHalted v).resetRequest = s.resetRequest := rfl
@[simp] theorem State.setHalted_arrivals (s : State) (v : Bool) : (s.setHalted v).arrivals = s.arrivals := rfl
@[simp] theorem State.setHalted_idIn (s : State) (v : Bool) : (s.setHalted v).idIn = s.idIn := rfl
@[simp] theorem State.setHalted_ioIn (s : State) (v : Bool) : (s.setHalted v).ioIn = s.ioIn := rfl
@[simp] theorem State.setHalted_epuIn (s : State) (v : Bool) : (s.setHalted v).epuIn = s.epuIn := rfl
@[simp] theorem State.setHalted_miIn (s : State) (v : Bool) : (s.setHalted v).miIn = s.miIn := rfl
@[simp] theorem State.setHalted_ioLog (s : State) (v : Bool) : (s.setHalted v).ioLog = s.ioLog := rfl
@[simp] theorem State.setHalted_epuLog (s : State) (v : Bool) : (s.setHalted v).epuLog = s.epuLog := rfl
@[simp] theorem State.setHalted_freeCount (s : State) (v : Bool) : (s.setHalted v).freeCount = s.freeCount := rfl
@[simp] theorem State.setHalted_mem (s : State) (v : Bool) : (s.setHalted v).mem = s.mem := rfl

@[simp] theorem State.setNmiPending_cfg (s : State) (v : Bool) : (s.setNmiPending v).cfg = s.cfg := rfl
@[simp] theorem State.setNmiPending_regs (s : State) (v : Bool) : (s.setNmiPending v).regs = s.regs := rfl
@[simp] theorem State.setNmiPending_pcSeg (s : State) (v : Bool) : (s.setNmiPending v).pcSeg = s.pcSeg := rfl
@[simp] theorem State.setNmiPending_pcOff (s : State) (v : Bool) : (s.setNmiPending v).pcOff = s.pcOff := rfl
@[simp] theorem State.setNmiPending_fcw (s : State) (v : Bool) : (s.setNmiPending v).fcw = s.fcw := rfl
@[simp] theorem State.setNmiPending_psapSeg (s : State) (v : Bool) : (s.setNmiPending v).psapSeg = s.psapSeg := rfl
@[simp] theorem State.setNmiPending_psapOff (s : State) (v : Bool) : (s.setNmiPending v).psapOff = s.psapOff := rfl
@[simp] theorem State.setNmiPending_refresh (s : State) (v : Bool) : (s.setNmiPending v).refresh = s.refresh := rfl
@[simp] theorem State.setNmiPending_moHigh (s : State) (v : Bool) : (s.setNmiPending v).moHigh = s.moHigh := rfl
@[simp] theorem State.setNmiPending_halted (s : State) (v : Bool) : (s.setNmiPending v).halted = s.halted := rfl
@[simp] theorem State.setNmiPending_nmiPending (s : State) (v : Bool) : (s.setNmiPending v).nmiPending = v := rfl
@[simp] theorem State.setNmiPending_segtrapRequest (s : State) (v : Bool) : (s.setNmiPending v).segtrapRequest = s.segtrapRequest := rfl
@[simp] theorem State.setNmiPending_viRequest (s : State) (v : Bool) : (s.setNmiPending v).viRequest = s.viRequest := rfl
@[simp] theorem State.setNmiPending_nviRequest (s : State) (v : Bool) : (s.setNmiPending v).nviRequest = s.nviRequest := rfl
@[simp] theorem State.setNmiPending_resetRequest (s : State) (v : Bool) : (s.setNmiPending v).resetRequest = s.resetRequest := rfl
@[simp] theorem State.setNmiPending_arrivals (s : State) (v : Bool) : (s.setNmiPending v).arrivals = s.arrivals := rfl
@[simp] theorem State.setNmiPending_idIn (s : State) (v : Bool) : (s.setNmiPending v).idIn = s.idIn := rfl
@[simp] theorem State.setNmiPending_ioIn (s : State) (v : Bool) : (s.setNmiPending v).ioIn = s.ioIn := rfl
@[simp] theorem State.setNmiPending_epuIn (s : State) (v : Bool) : (s.setNmiPending v).epuIn = s.epuIn := rfl
@[simp] theorem State.setNmiPending_miIn (s : State) (v : Bool) : (s.setNmiPending v).miIn = s.miIn := rfl
@[simp] theorem State.setNmiPending_ioLog (s : State) (v : Bool) : (s.setNmiPending v).ioLog = s.ioLog := rfl
@[simp] theorem State.setNmiPending_epuLog (s : State) (v : Bool) : (s.setNmiPending v).epuLog = s.epuLog := rfl
@[simp] theorem State.setNmiPending_freeCount (s : State) (v : Bool) : (s.setNmiPending v).freeCount = s.freeCount := rfl
@[simp] theorem State.setNmiPending_mem (s : State) (v : Bool) : (s.setNmiPending v).mem = s.mem := rfl

@[simp] theorem State.setSegtrapRequest_cfg (s : State) (v : Bool) : (s.setSegtrapRequest v).cfg = s.cfg := rfl
@[simp] theorem State.setSegtrapRequest_regs (s : State) (v : Bool) : (s.setSegtrapRequest v).regs = s.regs := rfl
@[simp] theorem State.setSegtrapRequest_pcSeg (s : State) (v : Bool) : (s.setSegtrapRequest v).pcSeg = s.pcSeg := rfl
@[simp] theorem State.setSegtrapRequest_pcOff (s : State) (v : Bool) : (s.setSegtrapRequest v).pcOff = s.pcOff := rfl
@[simp] theorem State.setSegtrapRequest_fcw (s : State) (v : Bool) : (s.setSegtrapRequest v).fcw = s.fcw := rfl
@[simp] theorem State.setSegtrapRequest_psapSeg (s : State) (v : Bool) : (s.setSegtrapRequest v).psapSeg = s.psapSeg := rfl
@[simp] theorem State.setSegtrapRequest_psapOff (s : State) (v : Bool) : (s.setSegtrapRequest v).psapOff = s.psapOff := rfl
@[simp] theorem State.setSegtrapRequest_refresh (s : State) (v : Bool) : (s.setSegtrapRequest v).refresh = s.refresh := rfl
@[simp] theorem State.setSegtrapRequest_moHigh (s : State) (v : Bool) : (s.setSegtrapRequest v).moHigh = s.moHigh := rfl
@[simp] theorem State.setSegtrapRequest_halted (s : State) (v : Bool) : (s.setSegtrapRequest v).halted = s.halted := rfl
@[simp] theorem State.setSegtrapRequest_nmiPending (s : State) (v : Bool) : (s.setSegtrapRequest v).nmiPending = s.nmiPending := rfl
@[simp] theorem State.setSegtrapRequest_segtrapRequest (s : State) (v : Bool) : (s.setSegtrapRequest v).segtrapRequest = v := rfl
@[simp] theorem State.setSegtrapRequest_viRequest (s : State) (v : Bool) : (s.setSegtrapRequest v).viRequest = s.viRequest := rfl
@[simp] theorem State.setSegtrapRequest_nviRequest (s : State) (v : Bool) : (s.setSegtrapRequest v).nviRequest = s.nviRequest := rfl
@[simp] theorem State.setSegtrapRequest_resetRequest (s : State) (v : Bool) : (s.setSegtrapRequest v).resetRequest = s.resetRequest := rfl
@[simp] theorem State.setSegtrapRequest_arrivals (s : State) (v : Bool) : (s.setSegtrapRequest v).arrivals = s.arrivals := rfl
@[simp] theorem State.setSegtrapRequest_idIn (s : State) (v : Bool) : (s.setSegtrapRequest v).idIn = s.idIn := rfl
@[simp] theorem State.setSegtrapRequest_ioIn (s : State) (v : Bool) : (s.setSegtrapRequest v).ioIn = s.ioIn := rfl
@[simp] theorem State.setSegtrapRequest_epuIn (s : State) (v : Bool) : (s.setSegtrapRequest v).epuIn = s.epuIn := rfl
@[simp] theorem State.setSegtrapRequest_miIn (s : State) (v : Bool) : (s.setSegtrapRequest v).miIn = s.miIn := rfl
@[simp] theorem State.setSegtrapRequest_ioLog (s : State) (v : Bool) : (s.setSegtrapRequest v).ioLog = s.ioLog := rfl
@[simp] theorem State.setSegtrapRequest_epuLog (s : State) (v : Bool) : (s.setSegtrapRequest v).epuLog = s.epuLog := rfl
@[simp] theorem State.setSegtrapRequest_freeCount (s : State) (v : Bool) : (s.setSegtrapRequest v).freeCount = s.freeCount := rfl
@[simp] theorem State.setSegtrapRequest_mem (s : State) (v : Bool) : (s.setSegtrapRequest v).mem = s.mem := rfl

@[simp] theorem State.setViRequest_cfg (s : State) (v : Bool) : (s.setViRequest v).cfg = s.cfg := rfl
@[simp] theorem State.setViRequest_regs (s : State) (v : Bool) : (s.setViRequest v).regs = s.regs := rfl
@[simp] theorem State.setViRequest_pcSeg (s : State) (v : Bool) : (s.setViRequest v).pcSeg = s.pcSeg := rfl
@[simp] theorem State.setViRequest_pcOff (s : State) (v : Bool) : (s.setViRequest v).pcOff = s.pcOff := rfl
@[simp] theorem State.setViRequest_fcw (s : State) (v : Bool) : (s.setViRequest v).fcw = s.fcw := rfl
@[simp] theorem State.setViRequest_psapSeg (s : State) (v : Bool) : (s.setViRequest v).psapSeg = s.psapSeg := rfl
@[simp] theorem State.setViRequest_psapOff (s : State) (v : Bool) : (s.setViRequest v).psapOff = s.psapOff := rfl
@[simp] theorem State.setViRequest_refresh (s : State) (v : Bool) : (s.setViRequest v).refresh = s.refresh := rfl
@[simp] theorem State.setViRequest_moHigh (s : State) (v : Bool) : (s.setViRequest v).moHigh = s.moHigh := rfl
@[simp] theorem State.setViRequest_halted (s : State) (v : Bool) : (s.setViRequest v).halted = s.halted := rfl
@[simp] theorem State.setViRequest_nmiPending (s : State) (v : Bool) : (s.setViRequest v).nmiPending = s.nmiPending := rfl
@[simp] theorem State.setViRequest_segtrapRequest (s : State) (v : Bool) : (s.setViRequest v).segtrapRequest = s.segtrapRequest := rfl
@[simp] theorem State.setViRequest_viRequest (s : State) (v : Bool) : (s.setViRequest v).viRequest = v := rfl
@[simp] theorem State.setViRequest_nviRequest (s : State) (v : Bool) : (s.setViRequest v).nviRequest = s.nviRequest := rfl
@[simp] theorem State.setViRequest_resetRequest (s : State) (v : Bool) : (s.setViRequest v).resetRequest = s.resetRequest := rfl
@[simp] theorem State.setViRequest_arrivals (s : State) (v : Bool) : (s.setViRequest v).arrivals = s.arrivals := rfl
@[simp] theorem State.setViRequest_idIn (s : State) (v : Bool) : (s.setViRequest v).idIn = s.idIn := rfl
@[simp] theorem State.setViRequest_ioIn (s : State) (v : Bool) : (s.setViRequest v).ioIn = s.ioIn := rfl
@[simp] theorem State.setViRequest_epuIn (s : State) (v : Bool) : (s.setViRequest v).epuIn = s.epuIn := rfl
@[simp] theorem State.setViRequest_miIn (s : State) (v : Bool) : (s.setViRequest v).miIn = s.miIn := rfl
@[simp] theorem State.setViRequest_ioLog (s : State) (v : Bool) : (s.setViRequest v).ioLog = s.ioLog := rfl
@[simp] theorem State.setViRequest_epuLog (s : State) (v : Bool) : (s.setViRequest v).epuLog = s.epuLog := rfl
@[simp] theorem State.setViRequest_freeCount (s : State) (v : Bool) : (s.setViRequest v).freeCount = s.freeCount := rfl
@[simp] theorem State.setViRequest_mem (s : State) (v : Bool) : (s.setViRequest v).mem = s.mem := rfl

@[simp] theorem State.setNviRequest_cfg (s : State) (v : Bool) : (s.setNviRequest v).cfg = s.cfg := rfl
@[simp] theorem State.setNviRequest_regs (s : State) (v : Bool) : (s.setNviRequest v).regs = s.regs := rfl
@[simp] theorem State.setNviRequest_pcSeg (s : State) (v : Bool) : (s.setNviRequest v).pcSeg = s.pcSeg := rfl
@[simp] theorem State.setNviRequest_pcOff (s : State) (v : Bool) : (s.setNviRequest v).pcOff = s.pcOff := rfl
@[simp] theorem State.setNviRequest_fcw (s : State) (v : Bool) : (s.setNviRequest v).fcw = s.fcw := rfl
@[simp] theorem State.setNviRequest_psapSeg (s : State) (v : Bool) : (s.setNviRequest v).psapSeg = s.psapSeg := rfl
@[simp] theorem State.setNviRequest_psapOff (s : State) (v : Bool) : (s.setNviRequest v).psapOff = s.psapOff := rfl
@[simp] theorem State.setNviRequest_refresh (s : State) (v : Bool) : (s.setNviRequest v).refresh = s.refresh := rfl
@[simp] theorem State.setNviRequest_moHigh (s : State) (v : Bool) : (s.setNviRequest v).moHigh = s.moHigh := rfl
@[simp] theorem State.setNviRequest_halted (s : State) (v : Bool) : (s.setNviRequest v).halted = s.halted := rfl
@[simp] theorem State.setNviRequest_nmiPending (s : State) (v : Bool) : (s.setNviRequest v).nmiPending = s.nmiPending := rfl
@[simp] theorem State.setNviRequest_segtrapRequest (s : State) (v : Bool) : (s.setNviRequest v).segtrapRequest = s.segtrapRequest := rfl
@[simp] theorem State.setNviRequest_viRequest (s : State) (v : Bool) : (s.setNviRequest v).viRequest = s.viRequest := rfl
@[simp] theorem State.setNviRequest_nviRequest (s : State) (v : Bool) : (s.setNviRequest v).nviRequest = v := rfl
@[simp] theorem State.setNviRequest_resetRequest (s : State) (v : Bool) : (s.setNviRequest v).resetRequest = s.resetRequest := rfl
@[simp] theorem State.setNviRequest_arrivals (s : State) (v : Bool) : (s.setNviRequest v).arrivals = s.arrivals := rfl
@[simp] theorem State.setNviRequest_idIn (s : State) (v : Bool) : (s.setNviRequest v).idIn = s.idIn := rfl
@[simp] theorem State.setNviRequest_ioIn (s : State) (v : Bool) : (s.setNviRequest v).ioIn = s.ioIn := rfl
@[simp] theorem State.setNviRequest_epuIn (s : State) (v : Bool) : (s.setNviRequest v).epuIn = s.epuIn := rfl
@[simp] theorem State.setNviRequest_miIn (s : State) (v : Bool) : (s.setNviRequest v).miIn = s.miIn := rfl
@[simp] theorem State.setNviRequest_ioLog (s : State) (v : Bool) : (s.setNviRequest v).ioLog = s.ioLog := rfl
@[simp] theorem State.setNviRequest_epuLog (s : State) (v : Bool) : (s.setNviRequest v).epuLog = s.epuLog := rfl
@[simp] theorem State.setNviRequest_freeCount (s : State) (v : Bool) : (s.setNviRequest v).freeCount = s.freeCount := rfl
@[simp] theorem State.setNviRequest_mem (s : State) (v : Bool) : (s.setNviRequest v).mem = s.mem := rfl

@[simp] theorem State.setResetRequest_cfg (s : State) (v : Bool) : (s.setResetRequest v).cfg = s.cfg := rfl
@[simp] theorem State.setResetRequest_regs (s : State) (v : Bool) : (s.setResetRequest v).regs = s.regs := rfl
@[simp] theorem State.setResetRequest_pcSeg (s : State) (v : Bool) : (s.setResetRequest v).pcSeg = s.pcSeg := rfl
@[simp] theorem State.setResetRequest_pcOff (s : State) (v : Bool) : (s.setResetRequest v).pcOff = s.pcOff := rfl
@[simp] theorem State.setResetRequest_fcw (s : State) (v : Bool) : (s.setResetRequest v).fcw = s.fcw := rfl
@[simp] theorem State.setResetRequest_psapSeg (s : State) (v : Bool) : (s.setResetRequest v).psapSeg = s.psapSeg := rfl
@[simp] theorem State.setResetRequest_psapOff (s : State) (v : Bool) : (s.setResetRequest v).psapOff = s.psapOff := rfl
@[simp] theorem State.setResetRequest_refresh (s : State) (v : Bool) : (s.setResetRequest v).refresh = s.refresh := rfl
@[simp] theorem State.setResetRequest_moHigh (s : State) (v : Bool) : (s.setResetRequest v).moHigh = s.moHigh := rfl
@[simp] theorem State.setResetRequest_halted (s : State) (v : Bool) : (s.setResetRequest v).halted = s.halted := rfl
@[simp] theorem State.setResetRequest_nmiPending (s : State) (v : Bool) : (s.setResetRequest v).nmiPending = s.nmiPending := rfl
@[simp] theorem State.setResetRequest_segtrapRequest (s : State) (v : Bool) : (s.setResetRequest v).segtrapRequest = s.segtrapRequest := rfl
@[simp] theorem State.setResetRequest_viRequest (s : State) (v : Bool) : (s.setResetRequest v).viRequest = s.viRequest := rfl
@[simp] theorem State.setResetRequest_nviRequest (s : State) (v : Bool) : (s.setResetRequest v).nviRequest = s.nviRequest := rfl
@[simp] theorem State.setResetRequest_resetRequest (s : State) (v : Bool) : (s.setResetRequest v).resetRequest = v := rfl
@[simp] theorem State.setResetRequest_arrivals (s : State) (v : Bool) : (s.setResetRequest v).arrivals = s.arrivals := rfl
@[simp] theorem State.setResetRequest_idIn (s : State) (v : Bool) : (s.setResetRequest v).idIn = s.idIn := rfl
@[simp] theorem State.setResetRequest_ioIn (s : State) (v : Bool) : (s.setResetRequest v).ioIn = s.ioIn := rfl
@[simp] theorem State.setResetRequest_epuIn (s : State) (v : Bool) : (s.setResetRequest v).epuIn = s.epuIn := rfl
@[simp] theorem State.setResetRequest_miIn (s : State) (v : Bool) : (s.setResetRequest v).miIn = s.miIn := rfl
@[simp] theorem State.setResetRequest_ioLog (s : State) (v : Bool) : (s.setResetRequest v).ioLog = s.ioLog := rfl
@[simp] theorem State.setResetRequest_epuLog (s : State) (v : Bool) : (s.setResetRequest v).epuLog = s.epuLog := rfl
@[simp] theorem State.setResetRequest_freeCount (s : State) (v : Bool) : (s.setResetRequest v).freeCount = s.freeCount := rfl
@[simp] theorem State.setResetRequest_mem (s : State) (v : Bool) : (s.setResetRequest v).mem = s.mem := rfl

@[simp] theorem State.setArrivals_cfg (s : State) (v : List Arrival) : (s.setArrivals v).cfg = s.cfg := rfl
@[simp] theorem State.setArrivals_regs (s : State) (v : List Arrival) : (s.setArrivals v).regs = s.regs := rfl
@[simp] theorem State.setArrivals_pcSeg (s : State) (v : List Arrival) : (s.setArrivals v).pcSeg = s.pcSeg := rfl
@[simp] theorem State.setArrivals_pcOff (s : State) (v : List Arrival) : (s.setArrivals v).pcOff = s.pcOff := rfl
@[simp] theorem State.setArrivals_fcw (s : State) (v : List Arrival) : (s.setArrivals v).fcw = s.fcw := rfl
@[simp] theorem State.setArrivals_psapSeg (s : State) (v : List Arrival) : (s.setArrivals v).psapSeg = s.psapSeg := rfl
@[simp] theorem State.setArrivals_psapOff (s : State) (v : List Arrival) : (s.setArrivals v).psapOff = s.psapOff := rfl
@[simp] theorem State.setArrivals_refresh (s : State) (v : List Arrival) : (s.setArrivals v).refresh = s.refresh := rfl
@[simp] theorem State.setArrivals_moHigh (s : State) (v : List Arrival) : (s.setArrivals v).moHigh = s.moHigh := rfl
@[simp] theorem State.setArrivals_halted (s : State) (v : List Arrival) : (s.setArrivals v).halted = s.halted := rfl
@[simp] theorem State.setArrivals_nmiPending (s : State) (v : List Arrival) : (s.setArrivals v).nmiPending = s.nmiPending := rfl
@[simp] theorem State.setArrivals_segtrapRequest (s : State) (v : List Arrival) : (s.setArrivals v).segtrapRequest = s.segtrapRequest := rfl
@[simp] theorem State.setArrivals_viRequest (s : State) (v : List Arrival) : (s.setArrivals v).viRequest = s.viRequest := rfl
@[simp] theorem State.setArrivals_nviRequest (s : State) (v : List Arrival) : (s.setArrivals v).nviRequest = s.nviRequest := rfl
@[simp] theorem State.setArrivals_resetRequest (s : State) (v : List Arrival) : (s.setArrivals v).resetRequest = s.resetRequest := rfl
@[simp] theorem State.setArrivals_arrivals (s : State) (v : List Arrival) : (s.setArrivals v).arrivals = v := rfl
@[simp] theorem State.setArrivals_idIn (s : State) (v : List Arrival) : (s.setArrivals v).idIn = s.idIn := rfl
@[simp] theorem State.setArrivals_ioIn (s : State) (v : List Arrival) : (s.setArrivals v).ioIn = s.ioIn := rfl
@[simp] theorem State.setArrivals_epuIn (s : State) (v : List Arrival) : (s.setArrivals v).epuIn = s.epuIn := rfl
@[simp] theorem State.setArrivals_miIn (s : State) (v : List Arrival) : (s.setArrivals v).miIn = s.miIn := rfl
@[simp] theorem State.setArrivals_ioLog (s : State) (v : List Arrival) : (s.setArrivals v).ioLog = s.ioLog := rfl
@[simp] theorem State.setArrivals_epuLog (s : State) (v : List Arrival) : (s.setArrivals v).epuLog = s.epuLog := rfl
@[simp] theorem State.setArrivals_freeCount (s : State) (v : List Arrival) : (s.setArrivals v).freeCount = s.freeCount := rfl
@[simp] theorem State.setArrivals_mem (s : State) (v : List Arrival) : (s.setArrivals v).mem = s.mem := rfl

@[simp] theorem State.setIdIn_cfg (s : State) (v : List Word) : (s.setIdIn v).cfg = s.cfg := rfl
@[simp] theorem State.setIdIn_regs (s : State) (v : List Word) : (s.setIdIn v).regs = s.regs := rfl
@[simp] theorem State.setIdIn_pcSeg (s : State) (v : List Word) : (s.setIdIn v).pcSeg = s.pcSeg := rfl
@[simp] theorem State.setIdIn_pcOff (s : State) (v : List Word) : (s.setIdIn v).pcOff = s.pcOff := rfl
@[simp] theorem State.setIdIn_fcw (s : State) (v : List Word) : (s.setIdIn v).fcw = s.fcw := rfl
@[simp] theorem State.setIdIn_psapSeg (s : State) (v : List Word) : (s.setIdIn v).psapSeg = s.psapSeg := rfl
@[simp] theorem State.setIdIn_psapOff (s : State) (v : List Word) : (s.setIdIn v).psapOff = s.psapOff := rfl
@[simp] theorem State.setIdIn_refresh (s : State) (v : List Word) : (s.setIdIn v).refresh = s.refresh := rfl
@[simp] theorem State.setIdIn_moHigh (s : State) (v : List Word) : (s.setIdIn v).moHigh = s.moHigh := rfl
@[simp] theorem State.setIdIn_halted (s : State) (v : List Word) : (s.setIdIn v).halted = s.halted := rfl
@[simp] theorem State.setIdIn_nmiPending (s : State) (v : List Word) : (s.setIdIn v).nmiPending = s.nmiPending := rfl
@[simp] theorem State.setIdIn_segtrapRequest (s : State) (v : List Word) : (s.setIdIn v).segtrapRequest = s.segtrapRequest := rfl
@[simp] theorem State.setIdIn_viRequest (s : State) (v : List Word) : (s.setIdIn v).viRequest = s.viRequest := rfl
@[simp] theorem State.setIdIn_nviRequest (s : State) (v : List Word) : (s.setIdIn v).nviRequest = s.nviRequest := rfl
@[simp] theorem State.setIdIn_resetRequest (s : State) (v : List Word) : (s.setIdIn v).resetRequest = s.resetRequest := rfl
@[simp] theorem State.setIdIn_arrivals (s : State) (v : List Word) : (s.setIdIn v).arrivals = s.arrivals := rfl
@[simp] theorem State.setIdIn_idIn (s : State) (v : List Word) : (s.setIdIn v).idIn = v := rfl
@[simp] theorem State.setIdIn_ioIn (s : State) (v : List Word) : (s.setIdIn v).ioIn = s.ioIn := rfl
@[simp] theorem State.setIdIn_epuIn (s : State) (v : List Word) : (s.setIdIn v).epuIn = s.epuIn := rfl
@[simp] theorem State.setIdIn_miIn (s : State) (v : List Word) : (s.setIdIn v).miIn = s.miIn := rfl
@[simp] theorem State.setIdIn_ioLog (s : State) (v : List Word) : (s.setIdIn v).ioLog = s.ioLog := rfl
@[simp] theorem State.setIdIn_epuLog (s : State) (v : List Word) : (s.setIdIn v).epuLog = s.epuLog := rfl
@[simp] theorem State.setIdIn_freeCount (s : State) (v : List Word) : (s.setIdIn v).freeCount = s.freeCount := rfl
@[simp] theorem State.setIdIn_mem (s : State) (v : List Word) : (s.setIdIn v).mem = s.mem := rfl

@[simp] theorem State.setIoIn_cfg (s : State) (v : List Word) : (s.setIoIn v).cfg = s.cfg := rfl
@[simp] theorem State.setIoIn_regs (s : State) (v : List Word) : (s.setIoIn v).regs = s.regs := rfl
@[simp] theorem State.setIoIn_pcSeg (s : State) (v : List Word) : (s.setIoIn v).pcSeg = s.pcSeg := rfl
@[simp] theorem State.setIoIn_pcOff (s : State) (v : List Word) : (s.setIoIn v).pcOff = s.pcOff := rfl
@[simp] theorem State.setIoIn_fcw (s : State) (v : List Word) : (s.setIoIn v).fcw = s.fcw := rfl
@[simp] theorem State.setIoIn_psapSeg (s : State) (v : List Word) : (s.setIoIn v).psapSeg = s.psapSeg := rfl
@[simp] theorem State.setIoIn_psapOff (s : State) (v : List Word) : (s.setIoIn v).psapOff = s.psapOff := rfl
@[simp] theorem State.setIoIn_refresh (s : State) (v : List Word) : (s.setIoIn v).refresh = s.refresh := rfl
@[simp] theorem State.setIoIn_moHigh (s : State) (v : List Word) : (s.setIoIn v).moHigh = s.moHigh := rfl
@[simp] theorem State.setIoIn_halted (s : State) (v : List Word) : (s.setIoIn v).halted = s.halted := rfl
@[simp] theorem State.setIoIn_nmiPending (s : State) (v : List Word) : (s.setIoIn v).nmiPending = s.nmiPending := rfl
@[simp] theorem State.setIoIn_segtrapRequest (s : State) (v : List Word) : (s.setIoIn v).segtrapRequest = s.segtrapRequest := rfl
@[simp] theorem State.setIoIn_viRequest (s : State) (v : List Word) : (s.setIoIn v).viRequest = s.viRequest := rfl
@[simp] theorem State.setIoIn_nviRequest (s : State) (v : List Word) : (s.setIoIn v).nviRequest = s.nviRequest := rfl
@[simp] theorem State.setIoIn_resetRequest (s : State) (v : List Word) : (s.setIoIn v).resetRequest = s.resetRequest := rfl
@[simp] theorem State.setIoIn_arrivals (s : State) (v : List Word) : (s.setIoIn v).arrivals = s.arrivals := rfl
@[simp] theorem State.setIoIn_idIn (s : State) (v : List Word) : (s.setIoIn v).idIn = s.idIn := rfl
@[simp] theorem State.setIoIn_ioIn (s : State) (v : List Word) : (s.setIoIn v).ioIn = v := rfl
@[simp] theorem State.setIoIn_epuIn (s : State) (v : List Word) : (s.setIoIn v).epuIn = s.epuIn := rfl
@[simp] theorem State.setIoIn_miIn (s : State) (v : List Word) : (s.setIoIn v).miIn = s.miIn := rfl
@[simp] theorem State.setIoIn_ioLog (s : State) (v : List Word) : (s.setIoIn v).ioLog = s.ioLog := rfl
@[simp] theorem State.setIoIn_epuLog (s : State) (v : List Word) : (s.setIoIn v).epuLog = s.epuLog := rfl
@[simp] theorem State.setIoIn_freeCount (s : State) (v : List Word) : (s.setIoIn v).freeCount = s.freeCount := rfl
@[simp] theorem State.setIoIn_mem (s : State) (v : List Word) : (s.setIoIn v).mem = s.mem := rfl

@[simp] theorem State.setEpuIn_cfg (s : State) (v : List Word) : (s.setEpuIn v).cfg = s.cfg := rfl
@[simp] theorem State.setEpuIn_regs (s : State) (v : List Word) : (s.setEpuIn v).regs = s.regs := rfl
@[simp] theorem State.setEpuIn_pcSeg (s : State) (v : List Word) : (s.setEpuIn v).pcSeg = s.pcSeg := rfl
@[simp] theorem State.setEpuIn_pcOff (s : State) (v : List Word) : (s.setEpuIn v).pcOff = s.pcOff := rfl
@[simp] theorem State.setEpuIn_fcw (s : State) (v : List Word) : (s.setEpuIn v).fcw = s.fcw := rfl
@[simp] theorem State.setEpuIn_psapSeg (s : State) (v : List Word) : (s.setEpuIn v).psapSeg = s.psapSeg := rfl
@[simp] theorem State.setEpuIn_psapOff (s : State) (v : List Word) : (s.setEpuIn v).psapOff = s.psapOff := rfl
@[simp] theorem State.setEpuIn_refresh (s : State) (v : List Word) : (s.setEpuIn v).refresh = s.refresh := rfl
@[simp] theorem State.setEpuIn_moHigh (s : State) (v : List Word) : (s.setEpuIn v).moHigh = s.moHigh := rfl
@[simp] theorem State.setEpuIn_halted (s : State) (v : List Word) : (s.setEpuIn v).halted = s.halted := rfl
@[simp] theorem State.setEpuIn_nmiPending (s : State) (v : List Word) : (s.setEpuIn v).nmiPending = s.nmiPending := rfl
@[simp] theorem State.setEpuIn_segtrapRequest (s : State) (v : List Word) : (s.setEpuIn v).segtrapRequest = s.segtrapRequest := rfl
@[simp] theorem State.setEpuIn_viRequest (s : State) (v : List Word) : (s.setEpuIn v).viRequest = s.viRequest := rfl
@[simp] theorem State.setEpuIn_nviRequest (s : State) (v : List Word) : (s.setEpuIn v).nviRequest = s.nviRequest := rfl
@[simp] theorem State.setEpuIn_resetRequest (s : State) (v : List Word) : (s.setEpuIn v).resetRequest = s.resetRequest := rfl
@[simp] theorem State.setEpuIn_arrivals (s : State) (v : List Word) : (s.setEpuIn v).arrivals = s.arrivals := rfl
@[simp] theorem State.setEpuIn_idIn (s : State) (v : List Word) : (s.setEpuIn v).idIn = s.idIn := rfl
@[simp] theorem State.setEpuIn_ioIn (s : State) (v : List Word) : (s.setEpuIn v).ioIn = s.ioIn := rfl
@[simp] theorem State.setEpuIn_epuIn (s : State) (v : List Word) : (s.setEpuIn v).epuIn = v := rfl
@[simp] theorem State.setEpuIn_miIn (s : State) (v : List Word) : (s.setEpuIn v).miIn = s.miIn := rfl
@[simp] theorem State.setEpuIn_ioLog (s : State) (v : List Word) : (s.setEpuIn v).ioLog = s.ioLog := rfl
@[simp] theorem State.setEpuIn_epuLog (s : State) (v : List Word) : (s.setEpuIn v).epuLog = s.epuLog := rfl
@[simp] theorem State.setEpuIn_freeCount (s : State) (v : List Word) : (s.setEpuIn v).freeCount = s.freeCount := rfl
@[simp] theorem State.setEpuIn_mem (s : State) (v : List Word) : (s.setEpuIn v).mem = s.mem := rfl

@[simp] theorem State.setMiIn_cfg (s : State) (v : List Bool) : (s.setMiIn v).cfg = s.cfg := rfl
@[simp] theorem State.setMiIn_regs (s : State) (v : List Bool) : (s.setMiIn v).regs = s.regs := rfl
@[simp] theorem State.setMiIn_pcSeg (s : State) (v : List Bool) : (s.setMiIn v).pcSeg = s.pcSeg := rfl
@[simp] theorem State.setMiIn_pcOff (s : State) (v : List Bool) : (s.setMiIn v).pcOff = s.pcOff := rfl
@[simp] theorem State.setMiIn_fcw (s : State) (v : List Bool) : (s.setMiIn v).fcw = s.fcw := rfl
@[simp] theorem State.setMiIn_psapSeg (s : State) (v : List Bool) : (s.setMiIn v).psapSeg = s.psapSeg := rfl
@[simp] theorem State.setMiIn_psapOff (s : State) (v : List Bool) : (s.setMiIn v).psapOff = s.psapOff := rfl
@[simp] theorem State.setMiIn_refresh (s : State) (v : List Bool) : (s.setMiIn v).refresh = s.refresh := rfl
@[simp] theorem State.setMiIn_moHigh (s : State) (v : List Bool) : (s.setMiIn v).moHigh = s.moHigh := rfl
@[simp] theorem State.setMiIn_halted (s : State) (v : List Bool) : (s.setMiIn v).halted = s.halted := rfl
@[simp] theorem State.setMiIn_nmiPending (s : State) (v : List Bool) : (s.setMiIn v).nmiPending = s.nmiPending := rfl
@[simp] theorem State.setMiIn_segtrapRequest (s : State) (v : List Bool) : (s.setMiIn v).segtrapRequest = s.segtrapRequest := rfl
@[simp] theorem State.setMiIn_viRequest (s : State) (v : List Bool) : (s.setMiIn v).viRequest = s.viRequest := rfl
@[simp] theorem State.setMiIn_nviRequest (s : State) (v : List Bool) : (s.setMiIn v).nviRequest = s.nviRequest := rfl
@[simp] theorem State.setMiIn_resetRequest (s : State) (v : List Bool) : (s.setMiIn v).resetRequest = s.resetRequest := rfl
@[simp] theorem State.setMiIn_arrivals (s : State) (v : List Bool) : (s.setMiIn v).arrivals = s.arrivals := rfl
@[simp] theorem State.setMiIn_idIn (s : State) (v : List Bool) : (s.setMiIn v).idIn = s.idIn := rfl
@[simp] theorem State.setMiIn_ioIn (s : State) (v : List Bool) : (s.setMiIn v).ioIn = s.ioIn := rfl
@[simp] theorem State.setMiIn_epuIn (s : State) (v : List Bool) : (s.setMiIn v).epuIn = s.epuIn := rfl
@[simp] theorem State.setMiIn_miIn (s : State) (v : List Bool) : (s.setMiIn v).miIn = v := rfl
@[simp] theorem State.setMiIn_ioLog (s : State) (v : List Bool) : (s.setMiIn v).ioLog = s.ioLog := rfl
@[simp] theorem State.setMiIn_epuLog (s : State) (v : List Bool) : (s.setMiIn v).epuLog = s.epuLog := rfl
@[simp] theorem State.setMiIn_freeCount (s : State) (v : List Bool) : (s.setMiIn v).freeCount = s.freeCount := rfl
@[simp] theorem State.setMiIn_mem (s : State) (v : List Bool) : (s.setMiIn v).mem = s.mem := rfl

@[simp] theorem State.setIoLog_cfg (s : State) (v : List IoEvent) : (s.setIoLog v).cfg = s.cfg := rfl
@[simp] theorem State.setIoLog_regs (s : State) (v : List IoEvent) : (s.setIoLog v).regs = s.regs := rfl
@[simp] theorem State.setIoLog_pcSeg (s : State) (v : List IoEvent) : (s.setIoLog v).pcSeg = s.pcSeg := rfl
@[simp] theorem State.setIoLog_pcOff (s : State) (v : List IoEvent) : (s.setIoLog v).pcOff = s.pcOff := rfl
@[simp] theorem State.setIoLog_fcw (s : State) (v : List IoEvent) : (s.setIoLog v).fcw = s.fcw := rfl
@[simp] theorem State.setIoLog_psapSeg (s : State) (v : List IoEvent) : (s.setIoLog v).psapSeg = s.psapSeg := rfl
@[simp] theorem State.setIoLog_psapOff (s : State) (v : List IoEvent) : (s.setIoLog v).psapOff = s.psapOff := rfl
@[simp] theorem State.setIoLog_refresh (s : State) (v : List IoEvent) : (s.setIoLog v).refresh = s.refresh := rfl
@[simp] theorem State.setIoLog_moHigh (s : State) (v : List IoEvent) : (s.setIoLog v).moHigh = s.moHigh := rfl
@[simp] theorem State.setIoLog_halted (s : State) (v : List IoEvent) : (s.setIoLog v).halted = s.halted := rfl
@[simp] theorem State.setIoLog_nmiPending (s : State) (v : List IoEvent) : (s.setIoLog v).nmiPending = s.nmiPending := rfl
@[simp] theorem State.setIoLog_segtrapRequest (s : State) (v : List IoEvent) : (s.setIoLog v).segtrapRequest = s.segtrapRequest := rfl
@[simp] theorem State.setIoLog_viRequest (s : State) (v : List IoEvent) : (s.setIoLog v).viRequest = s.viRequest := rfl
@[simp] theorem State.setIoLog_nviRequest (s : State) (v : List IoEvent) : (s.setIoLog v).nviRequest = s.nviRequest := rfl
@[simp] theorem State.setIoLog_resetRequest (s : State) (v : List IoEvent) : (s.setIoLog v).resetRequest = s.resetRequest := rfl
@[simp] theorem State.setIoLog_arrivals (s : State) (v : List IoEvent) : (s.setIoLog v).arrivals = s.arrivals := rfl
@[simp] theorem State.setIoLog_idIn (s : State) (v : List IoEvent) : (s.setIoLog v).idIn = s.idIn := rfl
@[simp] theorem State.setIoLog_ioIn (s : State) (v : List IoEvent) : (s.setIoLog v).ioIn = s.ioIn := rfl
@[simp] theorem State.setIoLog_epuIn (s : State) (v : List IoEvent) : (s.setIoLog v).epuIn = s.epuIn := rfl
@[simp] theorem State.setIoLog_miIn (s : State) (v : List IoEvent) : (s.setIoLog v).miIn = s.miIn := rfl
@[simp] theorem State.setIoLog_ioLog (s : State) (v : List IoEvent) : (s.setIoLog v).ioLog = v := rfl
@[simp] theorem State.setIoLog_epuLog (s : State) (v : List IoEvent) : (s.setIoLog v).epuLog = s.epuLog := rfl
@[simp] theorem State.setIoLog_freeCount (s : State) (v : List IoEvent) : (s.setIoLog v).freeCount = s.freeCount := rfl
@[simp] theorem State.setIoLog_mem (s : State) (v : List IoEvent) : (s.setIoLog v).mem = s.mem := rfl

@[simp] theorem State.setEpuLog_cfg (s : State) (v : List EpuEvent) : (s.setEpuLog v).cfg = s.cfg := rfl
@[simp] theorem State.setEpuLog_regs (s : State) (v : List EpuEvent) : (s.setEpuLog v).regs = s.regs := rfl
@[simp] theorem State.setEpuLog_pcSeg (s : State) (v : List EpuEvent) : (s.setEpuLog v).pcSeg = s.pcSeg := rfl
@[simp] theorem State.setEpuLog_pcOff (s : State) (v : List EpuEvent) : (s.setEpuLog v).pcOff = s.pcOff := rfl
@[simp] theorem State.setEpuLog_fcw (s : State) (v : List EpuEvent) : (s.setEpuLog v).fcw = s.fcw := rfl
@[simp] theorem State.setEpuLog_psapSeg (s : State) (v : List EpuEvent) : (s.setEpuLog v).psapSeg = s.psapSeg := rfl
@[simp] theorem State.setEpuLog_psapOff (s : State) (v : List EpuEvent) : (s.setEpuLog v).psapOff = s.psapOff := rfl
@[simp] theorem State.setEpuLog_refresh (s : State) (v : List EpuEvent) : (s.setEpuLog v).refresh = s.refresh := rfl
@[simp] theorem State.setEpuLog_moHigh (s : State) (v : List EpuEvent) : (s.setEpuLog v).moHigh = s.moHigh := rfl
@[simp] theorem State.setEpuLog_halted (s : State) (v : List EpuEvent) : (s.setEpuLog v).halted = s.halted := rfl
@[simp] theorem State.setEpuLog_nmiPending (s : State) (v : List EpuEvent) : (s.setEpuLog v).nmiPending = s.nmiPending := rfl
@[simp] theorem State.setEpuLog_segtrapRequest (s : State) (v : List EpuEvent) : (s.setEpuLog v).segtrapRequest = s.segtrapRequest := rfl
@[simp] theorem State.setEpuLog_viRequest (s : State) (v : List EpuEvent) : (s.setEpuLog v).viRequest = s.viRequest := rfl
@[simp] theorem State.setEpuLog_nviRequest (s : State) (v : List EpuEvent) : (s.setEpuLog v).nviRequest = s.nviRequest := rfl
@[simp] theorem State.setEpuLog_resetRequest (s : State) (v : List EpuEvent) : (s.setEpuLog v).resetRequest = s.resetRequest := rfl
@[simp] theorem State.setEpuLog_arrivals (s : State) (v : List EpuEvent) : (s.setEpuLog v).arrivals = s.arrivals := rfl
@[simp] theorem State.setEpuLog_idIn (s : State) (v : List EpuEvent) : (s.setEpuLog v).idIn = s.idIn := rfl
@[simp] theorem State.setEpuLog_ioIn (s : State) (v : List EpuEvent) : (s.setEpuLog v).ioIn = s.ioIn := rfl
@[simp] theorem State.setEpuLog_epuIn (s : State) (v : List EpuEvent) : (s.setEpuLog v).epuIn = s.epuIn := rfl
@[simp] theorem State.setEpuLog_miIn (s : State) (v : List EpuEvent) : (s.setEpuLog v).miIn = s.miIn := rfl
@[simp] theorem State.setEpuLog_ioLog (s : State) (v : List EpuEvent) : (s.setEpuLog v).ioLog = s.ioLog := rfl
@[simp] theorem State.setEpuLog_epuLog (s : State) (v : List EpuEvent) : (s.setEpuLog v).epuLog = v := rfl
@[simp] theorem State.setEpuLog_freeCount (s : State) (v : List EpuEvent) : (s.setEpuLog v).freeCount = s.freeCount := rfl
@[simp] theorem State.setEpuLog_mem (s : State) (v : List EpuEvent) : (s.setEpuLog v).mem = s.mem := rfl

@[simp] theorem State.setFreeCount_cfg (s : State) (v : Nat) : (s.setFreeCount v).cfg = s.cfg := rfl
@[simp] theorem State.setFreeCount_regs (s : State) (v : Nat) : (s.setFreeCount v).regs = s.regs := rfl
@[simp] theorem State.setFreeCount_pcSeg (s : State) (v : Nat) : (s.setFreeCount v).pcSeg = s.pcSeg := rfl
@[simp] theorem State.setFreeCount_pcOff (s : State) (v : Nat) : (s.setFreeCount v).pcOff = s.pcOff := rfl
@[simp] theorem State.setFreeCount_fcw (s : State) (v : Nat) : (s.setFreeCount v).fcw = s.fcw := rfl
@[simp] theorem State.setFreeCount_psapSeg (s : State) (v : Nat) : (s.setFreeCount v).psapSeg = s.psapSeg := rfl
@[simp] theorem State.setFreeCount_psapOff (s : State) (v : Nat) : (s.setFreeCount v).psapOff = s.psapOff := rfl
@[simp] theorem State.setFreeCount_refresh (s : State) (v : Nat) : (s.setFreeCount v).refresh = s.refresh := rfl
@[simp] theorem State.setFreeCount_moHigh (s : State) (v : Nat) : (s.setFreeCount v).moHigh = s.moHigh := rfl
@[simp] theorem State.setFreeCount_halted (s : State) (v : Nat) : (s.setFreeCount v).halted = s.halted := rfl
@[simp] theorem State.setFreeCount_nmiPending (s : State) (v : Nat) : (s.setFreeCount v).nmiPending = s.nmiPending := rfl
@[simp] theorem State.setFreeCount_segtrapRequest (s : State) (v : Nat) : (s.setFreeCount v).segtrapRequest = s.segtrapRequest := rfl
@[simp] theorem State.setFreeCount_viRequest (s : State) (v : Nat) : (s.setFreeCount v).viRequest = s.viRequest := rfl
@[simp] theorem State.setFreeCount_nviRequest (s : State) (v : Nat) : (s.setFreeCount v).nviRequest = s.nviRequest := rfl
@[simp] theorem State.setFreeCount_resetRequest (s : State) (v : Nat) : (s.setFreeCount v).resetRequest = s.resetRequest := rfl
@[simp] theorem State.setFreeCount_arrivals (s : State) (v : Nat) : (s.setFreeCount v).arrivals = s.arrivals := rfl
@[simp] theorem State.setFreeCount_idIn (s : State) (v : Nat) : (s.setFreeCount v).idIn = s.idIn := rfl
@[simp] theorem State.setFreeCount_ioIn (s : State) (v : Nat) : (s.setFreeCount v).ioIn = s.ioIn := rfl
@[simp] theorem State.setFreeCount_epuIn (s : State) (v : Nat) : (s.setFreeCount v).epuIn = s.epuIn := rfl
@[simp] theorem State.setFreeCount_miIn (s : State) (v : Nat) : (s.setFreeCount v).miIn = s.miIn := rfl
@[simp] theorem State.setFreeCount_ioLog (s : State) (v : Nat) : (s.setFreeCount v).ioLog = s.ioLog := rfl
@[simp] theorem State.setFreeCount_epuLog (s : State) (v : Nat) : (s.setFreeCount v).epuLog = s.epuLog := rfl
@[simp] theorem State.setFreeCount_freeCount (s : State) (v : Nat) : (s.setFreeCount v).freeCount = v := rfl
@[simp] theorem State.setFreeCount_mem (s : State) (v : Nat) : (s.setFreeCount v).mem = s.mem := rfl

@[simp] theorem State.setMem_cfg (s : State) (v : Memory) : (s.setMem v).cfg = s.cfg := rfl
@[simp] theorem State.setMem_regs (s : State) (v : Memory) : (s.setMem v).regs = s.regs := rfl
@[simp] theorem State.setMem_pcSeg (s : State) (v : Memory) : (s.setMem v).pcSeg = s.pcSeg := rfl
@[simp] theorem State.setMem_pcOff (s : State) (v : Memory) : (s.setMem v).pcOff = s.pcOff := rfl
@[simp] theorem State.setMem_fcw (s : State) (v : Memory) : (s.setMem v).fcw = s.fcw := rfl
@[simp] theorem State.setMem_psapSeg (s : State) (v : Memory) : (s.setMem v).psapSeg = s.psapSeg := rfl
@[simp] theorem State.setMem_psapOff (s : State) (v : Memory) : (s.setMem v).psapOff = s.psapOff := rfl
@[simp] theorem State.setMem_refresh (s : State) (v : Memory) : (s.setMem v).refresh = s.refresh := rfl
@[simp] theorem State.setMem_moHigh (s : State) (v : Memory) : (s.setMem v).moHigh = s.moHigh := rfl
@[simp] theorem State.setMem_halted (s : State) (v : Memory) : (s.setMem v).halted = s.halted := rfl
@[simp] theorem State.setMem_nmiPending (s : State) (v : Memory) : (s.setMem v).nmiPending = s.nmiPending := rfl
@[simp] theorem State.setMem_segtrapRequest (s : State) (v : Memory) : (s.setMem v).segtrapRequest = s.segtrapRequest := rfl
@[simp] theorem State.setMem_viRequest (s : State) (v : Memory) : (s.setMem v).viRequest = s.viRequest := rfl
@[simp] theorem State.setMem_nviRequest (s : State) (v : Memory) : (s.setMem v).nviRequest = s.nviRequest := rfl
@[simp] theorem State.setMem_resetRequest (s : State) (v : Memory) : (s.setMem v).resetRequest = s.resetRequest := rfl
@[simp] theorem State.setMem_arrivals (s : State) (v : Memory) : (s.setMem v).arrivals = s.arrivals := rfl
@[simp] theorem State.setMem_idIn (s : State) (v : Memory) : (s.setMem v).idIn = s.idIn := rfl
@[simp] theorem State.setMem_ioIn (s : State) (v : Memory) : (s.setMem v).ioIn = s.ioIn := rfl
@[simp] theorem State.setMem_epuIn (s : State) (v : Memory) : (s.setMem v).epuIn = s.epuIn := rfl
@[simp] theorem State.setMem_miIn (s : State) (v : Memory) : (s.setMem v).miIn = s.miIn := rfl
@[simp] theorem State.setMem_ioLog (s : State) (v : Memory) : (s.setMem v).ioLog = s.ioLog := rfl
@[simp] theorem State.setMem_epuLog (s : State) (v : Memory) : (s.setMem v).epuLog = s.epuLog := rfl
@[simp] theorem State.setMem_freeCount (s : State) (v : Memory) : (s.setMem v).freeCount = s.freeCount := rfl
@[simp] theorem State.setMem_mem (s : State) (v : Memory) : (s.setMem v).mem = v := rfl

@[simp] theorem State.setPc_cfg (s : State) (seg : BitVec 7) (off : Word) : (s.setPc seg off).cfg = s.cfg := rfl
@[simp] theorem State.setPc_regs (s : State) (seg : BitVec 7) (off : Word) : (s.setPc seg off).regs = s.regs := rfl
@[simp] theorem State.setPc_pcSeg (s : State) (seg : BitVec 7) (off : Word) : (s.setPc seg off).pcSeg = seg := rfl
@[simp] theorem State.setPc_pcOff (s : State) (seg : BitVec 7) (off : Word) : (s.setPc seg off).pcOff = off := rfl
@[simp] theorem State.setPc_fcw (s : State) (seg : BitVec 7) (off : Word) : (s.setPc seg off).fcw = s.fcw := rfl
@[simp] theorem State.setPc_psapSeg (s : State) (seg : BitVec 7) (off : Word) : (s.setPc seg off).psapSeg = s.psapSeg := rfl
@[simp] theorem State.setPc_psapOff (s : State) (seg : BitVec 7) (off : Word) : (s.setPc seg off).psapOff = s.psapOff := rfl
@[simp] theorem State.setPc_refresh (s : State) (seg : BitVec 7) (off : Word) : (s.setPc seg off).refresh = s.refresh := rfl
@[simp] theorem State.setPc_moHigh (s : State) (seg : BitVec 7) (off : Word) : (s.setPc seg off).moHigh = s.moHigh := rfl
@[simp] theorem State.setPc_halted (s : State) (seg : BitVec 7) (off : Word) : (s.setPc seg off).halted = s.halted := rfl
@[simp] theorem State.setPc_nmiPending (s : State) (seg : BitVec 7) (off : Word) : (s.setPc seg off).nmiPending = s.nmiPending := rfl
@[simp] theorem State.setPc_segtrapRequest (s : State) (seg : BitVec 7) (off : Word) : (s.setPc seg off).segtrapRequest = s.segtrapRequest := rfl
@[simp] theorem State.setPc_viRequest (s : State) (seg : BitVec 7) (off : Word) : (s.setPc seg off).viRequest = s.viRequest := rfl
@[simp] theorem State.setPc_nviRequest (s : State) (seg : BitVec 7) (off : Word) : (s.setPc seg off).nviRequest = s.nviRequest := rfl
@[simp] theorem State.setPc_resetRequest (s : State) (seg : BitVec 7) (off : Word) : (s.setPc seg off).resetRequest = s.resetRequest := rfl
@[simp] theorem State.setPc_arrivals (s : State) (seg : BitVec 7) (off : Word) : (s.setPc seg off).arrivals = s.arrivals := rfl
@[simp] theorem State.setPc_idIn (s : State) (seg : BitVec 7) (off : Word) : (s.setPc seg off).idIn = s.idIn := rfl
@[simp] theorem State.setPc_ioIn (s : State) (seg : BitVec 7) (off : Word) : (s.setPc seg off).ioIn = s.ioIn := rfl
@[simp] theorem State.setPc_epuIn (s : State) (seg : BitVec 7) (off : Word) : (s.setPc seg off).epuIn = s.epuIn := rfl
@[simp] theorem State.setPc_miIn (s : State) (seg : BitVec 7) (off : Word) : (s.setPc seg off).miIn = s.miIn := rfl
@[simp] theorem State.setPc_ioLog (s : State) (seg : BitVec 7) (off : Word) : (s.setPc seg off).ioLog = s.ioLog := rfl
@[simp] theorem State.setPc_epuLog (s : State) (seg : BitVec 7) (off : Word) : (s.setPc seg off).epuLog = s.epuLog := rfl
@[simp] theorem State.setPc_freeCount (s : State) (seg : BitVec 7) (off : Word) : (s.setPc seg off).freeCount = s.freeCount := rfl
@[simp] theorem State.setPc_mem (s : State) (seg : BitVec 7) (off : Word) : (s.setPc seg off).mem = s.mem := rfl

@[simp] theorem State.setFlags_cfg (s : State) (f : Flags) : (s.setFlags f).cfg = s.cfg := rfl
@[simp] theorem State.setFlags_regs (s : State) (f : Flags) : (s.setFlags f).regs = s.regs := rfl
@[simp] theorem State.setFlags_pcSeg (s : State) (f : Flags) : (s.setFlags f).pcSeg = s.pcSeg := rfl
@[simp] theorem State.setFlags_pcOff (s : State) (f : Flags) : (s.setFlags f).pcOff = s.pcOff := rfl
@[simp] theorem State.setFlags_fcw (s : State) (f : Flags) : (s.setFlags f).fcw = { s.fcw with flags := f } := rfl
@[simp] theorem State.setFlags_psapSeg (s : State) (f : Flags) : (s.setFlags f).psapSeg = s.psapSeg := rfl
@[simp] theorem State.setFlags_psapOff (s : State) (f : Flags) : (s.setFlags f).psapOff = s.psapOff := rfl
@[simp] theorem State.setFlags_refresh (s : State) (f : Flags) : (s.setFlags f).refresh = s.refresh := rfl
@[simp] theorem State.setFlags_moHigh (s : State) (f : Flags) : (s.setFlags f).moHigh = s.moHigh := rfl
@[simp] theorem State.setFlags_halted (s : State) (f : Flags) : (s.setFlags f).halted = s.halted := rfl
@[simp] theorem State.setFlags_nmiPending (s : State) (f : Flags) : (s.setFlags f).nmiPending = s.nmiPending := rfl
@[simp] theorem State.setFlags_segtrapRequest (s : State) (f : Flags) : (s.setFlags f).segtrapRequest = s.segtrapRequest := rfl
@[simp] theorem State.setFlags_viRequest (s : State) (f : Flags) : (s.setFlags f).viRequest = s.viRequest := rfl
@[simp] theorem State.setFlags_nviRequest (s : State) (f : Flags) : (s.setFlags f).nviRequest = s.nviRequest := rfl
@[simp] theorem State.setFlags_resetRequest (s : State) (f : Flags) : (s.setFlags f).resetRequest = s.resetRequest := rfl
@[simp] theorem State.setFlags_arrivals (s : State) (f : Flags) : (s.setFlags f).arrivals = s.arrivals := rfl
@[simp] theorem State.setFlags_idIn (s : State) (f : Flags) : (s.setFlags f).idIn = s.idIn := rfl
@[simp] theorem State.setFlags_ioIn (s : State) (f : Flags) : (s.setFlags f).ioIn = s.ioIn := rfl
@[simp] theorem State.setFlags_epuIn (s : State) (f : Flags) : (s.setFlags f).epuIn = s.epuIn := rfl
@[simp] theorem State.setFlags_miIn (s : State) (f : Flags) : (s.setFlags f).miIn = s.miIn := rfl
@[simp] theorem State.setFlags_ioLog (s : State) (f : Flags) : (s.setFlags f).ioLog = s.ioLog := rfl
@[simp] theorem State.setFlags_epuLog (s : State) (f : Flags) : (s.setFlags f).epuLog = s.epuLog := rfl
@[simp] theorem State.setFlags_freeCount (s : State) (f : Flags) : (s.setFlags f).freeCount = s.freeCount := rfl
@[simp] theorem State.setFlags_mem (s : State) (f : Flags) : (s.setFlags f).mem = s.mem := rfl

@[simp] theorem State.took_cfg (s : State) (k : Nat) : (s.took k).cfg = s.cfg := rfl
@[simp] theorem State.took_regs (s : State) (k : Nat) : (s.took k).regs = s.regs := rfl
@[simp] theorem State.took_pcSeg (s : State) (k : Nat) : (s.took k).pcSeg = s.pcSeg := rfl
@[simp] theorem State.took_pcOff (s : State) (k : Nat) : (s.took k).pcOff = s.pcOff := rfl
@[simp] theorem State.took_fcw (s : State) (k : Nat) : (s.took k).fcw = s.fcw := rfl
@[simp] theorem State.took_psapSeg (s : State) (k : Nat) : (s.took k).psapSeg = s.psapSeg := rfl
@[simp] theorem State.took_psapOff (s : State) (k : Nat) : (s.took k).psapOff = s.psapOff := rfl
@[simp] theorem State.took_refresh (s : State) (k : Nat) : (s.took k).refresh = s.refresh := rfl
@[simp] theorem State.took_moHigh (s : State) (k : Nat) : (s.took k).moHigh = s.moHigh := rfl
@[simp] theorem State.took_halted (s : State) (k : Nat) : (s.took k).halted = s.halted := rfl
@[simp] theorem State.took_nmiPending (s : State) (k : Nat) : (s.took k).nmiPending = s.nmiPending := rfl
@[simp] theorem State.took_segtrapRequest (s : State) (k : Nat) : (s.took k).segtrapRequest = s.segtrapRequest := rfl
@[simp] theorem State.took_viRequest (s : State) (k : Nat) : (s.took k).viRequest = s.viRequest := rfl
@[simp] theorem State.took_nviRequest (s : State) (k : Nat) : (s.took k).nviRequest = s.nviRequest := rfl
@[simp] theorem State.took_resetRequest (s : State) (k : Nat) : (s.took k).resetRequest = s.resetRequest := rfl
@[simp] theorem State.took_arrivals (s : State) (k : Nat) : (s.took k).arrivals = s.arrivals := rfl
@[simp] theorem State.took_idIn (s : State) (k : Nat) : (s.took k).idIn = s.idIn := rfl
@[simp] theorem State.took_ioIn (s : State) (k : Nat) : (s.took k).ioIn = s.ioIn := rfl
@[simp] theorem State.took_epuIn (s : State) (k : Nat) : (s.took k).epuIn = s.epuIn := rfl
@[simp] theorem State.took_miIn (s : State) (k : Nat) : (s.took k).miIn = s.miIn := rfl
@[simp] theorem State.took_ioLog (s : State) (k : Nat) : (s.took k).ioLog = s.ioLog := rfl
@[simp] theorem State.took_epuLog (s : State) (k : Nat) : (s.took k).epuLog = s.epuLog := rfl
@[simp] theorem State.took_freeCount (s : State) (k : Nat) : (s.took k).freeCount = s.freeCount + k := rfl
@[simp] theorem State.took_mem (s : State) (k : Nat) : (s.took k).mem = s.mem := rfl

end Sys2Proof.Machine
end

