-- ==== Sys2Proof/Laws/Writes.lean ====
section
/-! SUPPORT. The fields that the writing operations of Ops leave alone. -/

namespace Sys2Proof.Machine

@[simp] theorem State.writeSlot_cfg (s : State) (i : Fin 18) (v : Word) : (s.writeSlot i v).cfg = s.cfg := rfl
@[simp] theorem State.writeSlot_pcSeg (s : State) (i : Fin 18) (v : Word) : (s.writeSlot i v).pcSeg = s.pcSeg := rfl
@[simp] theorem State.writeSlot_pcOff (s : State) (i : Fin 18) (v : Word) : (s.writeSlot i v).pcOff = s.pcOff := rfl
@[simp] theorem State.writeSlot_fcw (s : State) (i : Fin 18) (v : Word) : (s.writeSlot i v).fcw = s.fcw := rfl
@[simp] theorem State.writeSlot_psapSeg (s : State) (i : Fin 18) (v : Word) : (s.writeSlot i v).psapSeg = s.psapSeg := rfl
@[simp] theorem State.writeSlot_psapOff (s : State) (i : Fin 18) (v : Word) : (s.writeSlot i v).psapOff = s.psapOff := rfl
@[simp] theorem State.writeSlot_refresh (s : State) (i : Fin 18) (v : Word) : (s.writeSlot i v).refresh = s.refresh := rfl
@[simp] theorem State.writeSlot_moHigh (s : State) (i : Fin 18) (v : Word) : (s.writeSlot i v).moHigh = s.moHigh := rfl
@[simp] theorem State.writeSlot_halted (s : State) (i : Fin 18) (v : Word) : (s.writeSlot i v).halted = s.halted := rfl
@[simp] theorem State.writeSlot_nmiPending (s : State) (i : Fin 18) (v : Word) : (s.writeSlot i v).nmiPending = s.nmiPending := rfl
@[simp] theorem State.writeSlot_segtrapRequest (s : State) (i : Fin 18) (v : Word) : (s.writeSlot i v).segtrapRequest = s.segtrapRequest := rfl
@[simp] theorem State.writeSlot_viRequest (s : State) (i : Fin 18) (v : Word) : (s.writeSlot i v).viRequest = s.viRequest := rfl
@[simp] theorem State.writeSlot_nviRequest (s : State) (i : Fin 18) (v : Word) : (s.writeSlot i v).nviRequest = s.nviRequest := rfl
@[simp] theorem State.writeSlot_resetRequest (s : State) (i : Fin 18) (v : Word) : (s.writeSlot i v).resetRequest = s.resetRequest := rfl
@[simp] theorem State.writeSlot_arrivals (s : State) (i : Fin 18) (v : Word) : (s.writeSlot i v).arrivals = s.arrivals := rfl
@[simp] theorem State.writeSlot_idIn (s : State) (i : Fin 18) (v : Word) : (s.writeSlot i v).idIn = s.idIn := rfl
@[simp] theorem State.writeSlot_ioIn (s : State) (i : Fin 18) (v : Word) : (s.writeSlot i v).ioIn = s.ioIn := rfl
@[simp] theorem State.writeSlot_epuIn (s : State) (i : Fin 18) (v : Word) : (s.writeSlot i v).epuIn = s.epuIn := rfl
@[simp] theorem State.writeSlot_miIn (s : State) (i : Fin 18) (v : Word) : (s.writeSlot i v).miIn = s.miIn := rfl
@[simp] theorem State.writeSlot_ioLog (s : State) (i : Fin 18) (v : Word) : (s.writeSlot i v).ioLog = s.ioLog := rfl
@[simp] theorem State.writeSlot_epuLog (s : State) (i : Fin 18) (v : Word) : (s.writeSlot i v).epuLog = s.epuLog := rfl
@[simp] theorem State.writeSlot_freeCount (s : State) (i : Fin 18) (v : Word) : (s.writeSlot i v).freeCount = s.freeCount := rfl
@[simp] theorem State.writeSlot_mem (s : State) (i : Fin 18) (v : Word) : (s.writeSlot i v).mem = s.mem := rfl

@[simp] theorem State.writeW_cfg (s : State) (f : RegField) (v : Word) : (s.writeW f v).cfg = s.cfg := rfl
@[simp] theorem State.writeW_pcSeg (s : State) (f : RegField) (v : Word) : (s.writeW f v).pcSeg = s.pcSeg := rfl
@[simp] theorem State.writeW_pcOff (s : State) (f : RegField) (v : Word) : (s.writeW f v).pcOff = s.pcOff := rfl
@[simp] theorem State.writeW_fcw (s : State) (f : RegField) (v : Word) : (s.writeW f v).fcw = s.fcw := rfl
@[simp] theorem State.writeW_psapSeg (s : State) (f : RegField) (v : Word) : (s.writeW f v).psapSeg = s.psapSeg := rfl
@[simp] theorem State.writeW_psapOff (s : State) (f : RegField) (v : Word) : (s.writeW f v).psapOff = s.psapOff := rfl
@[simp] theorem State.writeW_refresh (s : State) (f : RegField) (v : Word) : (s.writeW f v).refresh = s.refresh := rfl
@[simp] theorem State.writeW_moHigh (s : State) (f : RegField) (v : Word) : (s.writeW f v).moHigh = s.moHigh := rfl
@[simp] theorem State.writeW_halted (s : State) (f : RegField) (v : Word) : (s.writeW f v).halted = s.halted := rfl
@[simp] theorem State.writeW_nmiPending (s : State) (f : RegField) (v : Word) : (s.writeW f v).nmiPending = s.nmiPending := rfl
@[simp] theorem State.writeW_segtrapRequest (s : State) (f : RegField) (v : Word) : (s.writeW f v).segtrapRequest = s.segtrapRequest := rfl
@[simp] theorem State.writeW_viRequest (s : State) (f : RegField) (v : Word) : (s.writeW f v).viRequest = s.viRequest := rfl
@[simp] theorem State.writeW_nviRequest (s : State) (f : RegField) (v : Word) : (s.writeW f v).nviRequest = s.nviRequest := rfl
@[simp] theorem State.writeW_resetRequest (s : State) (f : RegField) (v : Word) : (s.writeW f v).resetRequest = s.resetRequest := rfl
@[simp] theorem State.writeW_arrivals (s : State) (f : RegField) (v : Word) : (s.writeW f v).arrivals = s.arrivals := rfl
@[simp] theorem State.writeW_idIn (s : State) (f : RegField) (v : Word) : (s.writeW f v).idIn = s.idIn := rfl
@[simp] theorem State.writeW_ioIn (s : State) (f : RegField) (v : Word) : (s.writeW f v).ioIn = s.ioIn := rfl
@[simp] theorem State.writeW_epuIn (s : State) (f : RegField) (v : Word) : (s.writeW f v).epuIn = s.epuIn := rfl
@[simp] theorem State.writeW_miIn (s : State) (f : RegField) (v : Word) : (s.writeW f v).miIn = s.miIn := rfl
@[simp] theorem State.writeW_ioLog (s : State) (f : RegField) (v : Word) : (s.writeW f v).ioLog = s.ioLog := rfl
@[simp] theorem State.writeW_epuLog (s : State) (f : RegField) (v : Word) : (s.writeW f v).epuLog = s.epuLog := rfl
@[simp] theorem State.writeW_freeCount (s : State) (f : RegField) (v : Word) : (s.writeW f v).freeCount = s.freeCount := rfl
@[simp] theorem State.writeW_mem (s : State) (f : RegField) (v : Word) : (s.writeW f v).mem = s.mem := rfl

@[simp] theorem State.writeB_cfg (s : State) (f : RegField) (v : Byte) : (s.writeB f v).cfg = s.cfg := rfl
@[simp] theorem State.writeB_pcSeg (s : State) (f : RegField) (v : Byte) : (s.writeB f v).pcSeg = s.pcSeg := rfl
@[simp] theorem State.writeB_pcOff (s : State) (f : RegField) (v : Byte) : (s.writeB f v).pcOff = s.pcOff := rfl
@[simp] theorem State.writeB_fcw (s : State) (f : RegField) (v : Byte) : (s.writeB f v).fcw = s.fcw := rfl
@[simp] theorem State.writeB_psapSeg (s : State) (f : RegField) (v : Byte) : (s.writeB f v).psapSeg = s.psapSeg := rfl
@[simp] theorem State.writeB_psapOff (s : State) (f : RegField) (v : Byte) : (s.writeB f v).psapOff = s.psapOff := rfl
@[simp] theorem State.writeB_refresh (s : State) (f : RegField) (v : Byte) : (s.writeB f v).refresh = s.refresh := rfl
@[simp] theorem State.writeB_moHigh (s : State) (f : RegField) (v : Byte) : (s.writeB f v).moHigh = s.moHigh := rfl
@[simp] theorem State.writeB_halted (s : State) (f : RegField) (v : Byte) : (s.writeB f v).halted = s.halted := rfl
@[simp] theorem State.writeB_nmiPending (s : State) (f : RegField) (v : Byte) : (s.writeB f v).nmiPending = s.nmiPending := rfl
@[simp] theorem State.writeB_segtrapRequest (s : State) (f : RegField) (v : Byte) : (s.writeB f v).segtrapRequest = s.segtrapRequest := rfl
@[simp] theorem State.writeB_viRequest (s : State) (f : RegField) (v : Byte) : (s.writeB f v).viRequest = s.viRequest := rfl
@[simp] theorem State.writeB_nviRequest (s : State) (f : RegField) (v : Byte) : (s.writeB f v).nviRequest = s.nviRequest := rfl
@[simp] theorem State.writeB_resetRequest (s : State) (f : RegField) (v : Byte) : (s.writeB f v).resetRequest = s.resetRequest := rfl
@[simp] theorem State.writeB_arrivals (s : State) (f : RegField) (v : Byte) : (s.writeB f v).arrivals = s.arrivals := rfl
@[simp] theorem State.writeB_idIn (s : State) (f : RegField) (v : Byte) : (s.writeB f v).idIn = s.idIn := rfl
@[simp] theorem State.writeB_ioIn (s : State) (f : RegField) (v : Byte) : (s.writeB f v).ioIn = s.ioIn := rfl
@[simp] theorem State.writeB_epuIn (s : State) (f : RegField) (v : Byte) : (s.writeB f v).epuIn = s.epuIn := rfl
@[simp] theorem State.writeB_miIn (s : State) (f : RegField) (v : Byte) : (s.writeB f v).miIn = s.miIn := rfl
@[simp] theorem State.writeB_ioLog (s : State) (f : RegField) (v : Byte) : (s.writeB f v).ioLog = s.ioLog := rfl
@[simp] theorem State.writeB_epuLog (s : State) (f : RegField) (v : Byte) : (s.writeB f v).epuLog = s.epuLog := rfl
@[simp] theorem State.writeB_freeCount (s : State) (f : RegField) (v : Byte) : (s.writeB f v).freeCount = s.freeCount := rfl
@[simp] theorem State.writeB_mem (s : State) (f : RegField) (v : Byte) : (s.writeB f v).mem = s.mem := rfl

@[simp] theorem State.writeL_cfg (s : State) (f : RegField) (v : Long) : (s.writeL f v).cfg = s.cfg := rfl
@[simp] theorem State.writeL_pcSeg (s : State) (f : RegField) (v : Long) : (s.writeL f v).pcSeg = s.pcSeg := rfl
@[simp] theorem State.writeL_pcOff (s : State) (f : RegField) (v : Long) : (s.writeL f v).pcOff = s.pcOff := rfl
@[simp] theorem State.writeL_fcw (s : State) (f : RegField) (v : Long) : (s.writeL f v).fcw = s.fcw := rfl
@[simp] theorem State.writeL_psapSeg (s : State) (f : RegField) (v : Long) : (s.writeL f v).psapSeg = s.psapSeg := rfl
@[simp] theorem State.writeL_psapOff (s : State) (f : RegField) (v : Long) : (s.writeL f v).psapOff = s.psapOff := rfl
@[simp] theorem State.writeL_refresh (s : State) (f : RegField) (v : Long) : (s.writeL f v).refresh = s.refresh := rfl
@[simp] theorem State.writeL_moHigh (s : State) (f : RegField) (v : Long) : (s.writeL f v).moHigh = s.moHigh := rfl
@[simp] theorem State.writeL_halted (s : State) (f : RegField) (v : Long) : (s.writeL f v).halted = s.halted := rfl
@[simp] theorem State.writeL_nmiPending (s : State) (f : RegField) (v : Long) : (s.writeL f v).nmiPending = s.nmiPending := rfl
@[simp] theorem State.writeL_segtrapRequest (s : State) (f : RegField) (v : Long) : (s.writeL f v).segtrapRequest = s.segtrapRequest := rfl
@[simp] theorem State.writeL_viRequest (s : State) (f : RegField) (v : Long) : (s.writeL f v).viRequest = s.viRequest := rfl
@[simp] theorem State.writeL_nviRequest (s : State) (f : RegField) (v : Long) : (s.writeL f v).nviRequest = s.nviRequest := rfl
@[simp] theorem State.writeL_resetRequest (s : State) (f : RegField) (v : Long) : (s.writeL f v).resetRequest = s.resetRequest := rfl
@[simp] theorem State.writeL_arrivals (s : State) (f : RegField) (v : Long) : (s.writeL f v).arrivals = s.arrivals := rfl
@[simp] theorem State.writeL_idIn (s : State) (f : RegField) (v : Long) : (s.writeL f v).idIn = s.idIn := rfl
@[simp] theorem State.writeL_ioIn (s : State) (f : RegField) (v : Long) : (s.writeL f v).ioIn = s.ioIn := rfl
@[simp] theorem State.writeL_epuIn (s : State) (f : RegField) (v : Long) : (s.writeL f v).epuIn = s.epuIn := rfl
@[simp] theorem State.writeL_miIn (s : State) (f : RegField) (v : Long) : (s.writeL f v).miIn = s.miIn := rfl
@[simp] theorem State.writeL_ioLog (s : State) (f : RegField) (v : Long) : (s.writeL f v).ioLog = s.ioLog := rfl
@[simp] theorem State.writeL_epuLog (s : State) (f : RegField) (v : Long) : (s.writeL f v).epuLog = s.epuLog := rfl
@[simp] theorem State.writeL_freeCount (s : State) (f : RegField) (v : Long) : (s.writeL f v).freeCount = s.freeCount := rfl
@[simp] theorem State.writeL_mem (s : State) (f : RegField) (v : Long) : (s.writeL f v).mem = s.mem := rfl

@[simp] theorem State.writeQ_cfg (s : State) (f : RegField) (v : Quad) : (s.writeQ f v).cfg = s.cfg :=
  (State.writeL_cfg _ _ _).trans (State.writeL_cfg _ _ _)
@[simp] theorem State.writeQ_pcSeg (s : State) (f : RegField) (v : Quad) : (s.writeQ f v).pcSeg = s.pcSeg :=
  (State.writeL_pcSeg _ _ _).trans (State.writeL_pcSeg _ _ _)
@[simp] theorem State.writeQ_pcOff (s : State) (f : RegField) (v : Quad) : (s.writeQ f v).pcOff = s.pcOff :=
  (State.writeL_pcOff _ _ _).trans (State.writeL_pcOff _ _ _)
@[simp] theorem State.writeQ_fcw (s : State) (f : RegField) (v : Quad) : (s.writeQ f v).fcw = s.fcw :=
  (State.writeL_fcw _ _ _).trans (State.writeL_fcw _ _ _)
@[simp] theorem State.writeQ_psapSeg (s : State) (f : RegField) (v : Quad) : (s.writeQ f v).psapSeg = s.psapSeg :=
  (State.writeL_psapSeg _ _ _).trans (State.writeL_psapSeg _ _ _)
@[simp] theorem State.writeQ_psapOff (s : State) (f : RegField) (v : Quad) : (s.writeQ f v).psapOff = s.psapOff :=
  (State.writeL_psapOff _ _ _).trans (State.writeL_psapOff _ _ _)
@[simp] theorem State.writeQ_refresh (s : State) (f : RegField) (v : Quad) : (s.writeQ f v).refresh = s.refresh :=
  (State.writeL_refresh _ _ _).trans (State.writeL_refresh _ _ _)
@[simp] theorem State.writeQ_moHigh (s : State) (f : RegField) (v : Quad) : (s.writeQ f v).moHigh = s.moHigh :=
  (State.writeL_moHigh _ _ _).trans (State.writeL_moHigh _ _ _)
@[simp] theorem State.writeQ_halted (s : State) (f : RegField) (v : Quad) : (s.writeQ f v).halted = s.halted :=
  (State.writeL_halted _ _ _).trans (State.writeL_halted _ _ _)
@[simp] theorem State.writeQ_nmiPending (s : State) (f : RegField) (v : Quad) : (s.writeQ f v).nmiPending = s.nmiPending :=
  (State.writeL_nmiPending _ _ _).trans (State.writeL_nmiPending _ _ _)
@[simp] theorem State.writeQ_segtrapRequest (s : State) (f : RegField) (v : Quad) : (s.writeQ f v).segtrapRequest = s.segtrapRequest :=
  (State.writeL_segtrapRequest _ _ _).trans (State.writeL_segtrapRequest _ _ _)
@[simp] theorem State.writeQ_viRequest (s : State) (f : RegField) (v : Quad) : (s.writeQ f v).viRequest = s.viRequest :=
  (State.writeL_viRequest _ _ _).trans (State.writeL_viRequest _ _ _)
@[simp] theorem State.writeQ_nviRequest (s : State) (f : RegField) (v : Quad) : (s.writeQ f v).nviRequest = s.nviRequest :=
  (State.writeL_nviRequest _ _ _).trans (State.writeL_nviRequest _ _ _)
@[simp] theorem State.writeQ_resetRequest (s : State) (f : RegField) (v : Quad) : (s.writeQ f v).resetRequest = s.resetRequest :=
  (State.writeL_resetRequest _ _ _).trans (State.writeL_resetRequest _ _ _)
@[simp] theorem State.writeQ_arrivals (s : State) (f : RegField) (v : Quad) : (s.writeQ f v).arrivals = s.arrivals :=
  (State.writeL_arrivals _ _ _).trans (State.writeL_arrivals _ _ _)
@[simp] theorem State.writeQ_idIn (s : State) (f : RegField) (v : Quad) : (s.writeQ f v).idIn = s.idIn :=
  (State.writeL_idIn _ _ _).trans (State.writeL_idIn _ _ _)
@[simp] theorem State.writeQ_ioIn (s : State) (f : RegField) (v : Quad) : (s.writeQ f v).ioIn = s.ioIn :=
  (State.writeL_ioIn _ _ _).trans (State.writeL_ioIn _ _ _)
@[simp] theorem State.writeQ_epuIn (s : State) (f : RegField) (v : Quad) : (s.writeQ f v).epuIn = s.epuIn :=
  (State.writeL_epuIn _ _ _).trans (State.writeL_epuIn _ _ _)
@[simp] theorem State.writeQ_miIn (s : State) (f : RegField) (v : Quad) : (s.writeQ f v).miIn = s.miIn :=
  (State.writeL_miIn _ _ _).trans (State.writeL_miIn _ _ _)
@[simp] theorem State.writeQ_ioLog (s : State) (f : RegField) (v : Quad) : (s.writeQ f v).ioLog = s.ioLog :=
  (State.writeL_ioLog _ _ _).trans (State.writeL_ioLog _ _ _)
@[simp] theorem State.writeQ_epuLog (s : State) (f : RegField) (v : Quad) : (s.writeQ f v).epuLog = s.epuLog :=
  (State.writeL_epuLog _ _ _).trans (State.writeL_epuLog _ _ _)
@[simp] theorem State.writeQ_freeCount (s : State) (f : RegField) (v : Quad) : (s.writeQ f v).freeCount = s.freeCount :=
  (State.writeL_freeCount _ _ _).trans (State.writeL_freeCount _ _ _)
@[simp] theorem State.writeQ_mem (s : State) (f : RegField) (v : Quad) : (s.writeQ f v).mem = s.mem :=
  (State.writeL_mem _ _ _).trans (State.writeL_mem _ _ _)

@[simp] theorem State.stepPointer_cfg (s : State) (f : RegField) (k : Word) : (s.stepPointer f k).cfg = s.cfg := rfl
@[simp] theorem State.stepPointer_pcSeg (s : State) (f : RegField) (k : Word) : (s.stepPointer f k).pcSeg = s.pcSeg := rfl
@[simp] theorem State.stepPointer_pcOff (s : State) (f : RegField) (k : Word) : (s.stepPointer f k).pcOff = s.pcOff := rfl
@[simp] theorem State.stepPointer_fcw (s : State) (f : RegField) (k : Word) : (s.stepPointer f k).fcw = s.fcw := rfl
@[simp] theorem State.stepPointer_psapSeg (s : State) (f : RegField) (k : Word) : (s.stepPointer f k).psapSeg = s.psapSeg := rfl
@[simp] theorem State.stepPointer_psapOff (s : State) (f : RegField) (k : Word) : (s.stepPointer f k).psapOff = s.psapOff := rfl
@[simp] theorem State.stepPointer_refresh (s : State) (f : RegField) (k : Word) : (s.stepPointer f k).refresh = s.refresh := rfl
@[simp] theorem State.stepPointer_moHigh (s : State) (f : RegField) (k : Word) : (s.stepPointer f k).moHigh = s.moHigh := rfl
@[simp] theorem State.stepPointer_halted (s : State) (f : RegField) (k : Word) : (s.stepPointer f k).halted = s.halted := rfl
@[simp] theorem State.stepPointer_nmiPending (s : State) (f : RegField) (k : Word) : (s.stepPointer f k).nmiPending = s.nmiPending := rfl
@[simp] theorem State.stepPointer_segtrapRequest (s : State) (f : RegField) (k : Word) : (s.stepPointer f k).segtrapRequest = s.segtrapRequest := rfl
@[simp] theorem State.stepPointer_viRequest (s : State) (f : RegField) (k : Word) : (s.stepPointer f k).viRequest = s.viRequest := rfl
@[simp] theorem State.stepPointer_nviRequest (s : State) (f : RegField) (k : Word) : (s.stepPointer f k).nviRequest = s.nviRequest := rfl
@[simp] theorem State.stepPointer_resetRequest (s : State) (f : RegField) (k : Word) : (s.stepPointer f k).resetRequest = s.resetRequest := rfl
@[simp] theorem State.stepPointer_arrivals (s : State) (f : RegField) (k : Word) : (s.stepPointer f k).arrivals = s.arrivals := rfl
@[simp] theorem State.stepPointer_idIn (s : State) (f : RegField) (k : Word) : (s.stepPointer f k).idIn = s.idIn := rfl
@[simp] theorem State.stepPointer_ioIn (s : State) (f : RegField) (k : Word) : (s.stepPointer f k).ioIn = s.ioIn := rfl
@[simp] theorem State.stepPointer_epuIn (s : State) (f : RegField) (k : Word) : (s.stepPointer f k).epuIn = s.epuIn := rfl
@[simp] theorem State.stepPointer_miIn (s : State) (f : RegField) (k : Word) : (s.stepPointer f k).miIn = s.miIn := rfl
@[simp] theorem State.stepPointer_ioLog (s : State) (f : RegField) (k : Word) : (s.stepPointer f k).ioLog = s.ioLog := rfl
@[simp] theorem State.stepPointer_epuLog (s : State) (f : RegField) (k : Word) : (s.stepPointer f k).epuLog = s.epuLog := rfl
@[simp] theorem State.stepPointer_freeCount (s : State) (f : RegField) (k : Word) : (s.stepPointer f k).freeCount = s.freeCount := rfl
@[simp] theorem State.stepPointer_mem (s : State) (f : RegField) (k : Word) : (s.stepPointer f k).mem = s.mem := rfl

@[simp] theorem State.writeByte_cfg (s : State) (a : Address) (v : Byte) : (s.writeByte a v).cfg = s.cfg := rfl
@[simp] theorem State.writeByte_regs (s : State) (a : Address) (v : Byte) : (s.writeByte a v).regs = s.regs := rfl
@[simp] theorem State.writeByte_pcSeg (s : State) (a : Address) (v : Byte) : (s.writeByte a v).pcSeg = s.pcSeg := rfl
@[simp] theorem State.writeByte_pcOff (s : State) (a : Address) (v : Byte) : (s.writeByte a v).pcOff = s.pcOff := rfl
@[simp] theorem State.writeByte_fcw (s : State) (a : Address) (v : Byte) : (s.writeByte a v).fcw = s.fcw := rfl
@[simp] theorem State.writeByte_psapSeg (s : State) (a : Address) (v : Byte) : (s.writeByte a v).psapSeg = s.psapSeg := rfl
@[simp] theorem State.writeByte_psapOff (s : State) (a : Address) (v : Byte) : (s.writeByte a v).psapOff = s.psapOff := rfl
@[simp] theorem State.writeByte_refresh (s : State) (a : Address) (v : Byte) : (s.writeByte a v).refresh = s.refresh := rfl
@[simp] theorem State.writeByte_moHigh (s : State) (a : Address) (v : Byte) : (s.writeByte a v).moHigh = s.moHigh := rfl
@[simp] theorem State.writeByte_halted (s : State) (a : Address) (v : Byte) : (s.writeByte a v).halted = s.halted := rfl
@[simp] theorem State.writeByte_nmiPending (s : State) (a : Address) (v : Byte) : (s.writeByte a v).nmiPending = s.nmiPending := rfl
@[simp] theorem State.writeByte_segtrapRequest (s : State) (a : Address) (v : Byte) : (s.writeByte a v).segtrapRequest = s.segtrapRequest := rfl
@[simp] theorem State.writeByte_viRequest (s : State) (a : Address) (v : Byte) : (s.writeByte a v).viRequest = s.viRequest := rfl
@[simp] theorem State.writeByte_nviRequest (s : State) (a : Address) (v : Byte) : (s.writeByte a v).nviRequest = s.nviRequest := rfl
@[simp] theorem State.writeByte_resetRequest (s : State) (a : Address) (v : Byte) : (s.writeByte a v).resetRequest = s.resetRequest := rfl
@[simp] theorem State.writeByte_arrivals (s : State) (a : Address) (v : Byte) : (s.writeByte a v).arrivals = s.arrivals := rfl
@[simp] theorem State.writeByte_idIn (s : State) (a : Address) (v : Byte) : (s.writeByte a v).idIn = s.idIn := rfl
@[simp] theorem State.writeByte_ioIn (s : State) (a : Address) (v : Byte) : (s.writeByte a v).ioIn = s.ioIn := rfl
@[simp] theorem State.writeByte_epuIn (s : State) (a : Address) (v : Byte) : (s.writeByte a v).epuIn = s.epuIn := rfl
@[simp] theorem State.writeByte_miIn (s : State) (a : Address) (v : Byte) : (s.writeByte a v).miIn = s.miIn := rfl
@[simp] theorem State.writeByte_ioLog (s : State) (a : Address) (v : Byte) : (s.writeByte a v).ioLog = s.ioLog := rfl
@[simp] theorem State.writeByte_epuLog (s : State) (a : Address) (v : Byte) : (s.writeByte a v).epuLog = s.epuLog := rfl
@[simp] theorem State.writeByte_freeCount (s : State) (a : Address) (v : Byte) : (s.writeByte a v).freeCount = s.freeCount := rfl

@[simp] theorem State.pokeWord_cfg (s : State) (a : Address) (v : Word) : (s.pokeWord a v).cfg = s.cfg :=
  (State.writeByte_cfg _ _ _).trans (State.writeByte_cfg _ _ _)
@[simp] theorem State.pokeWord_regs (s : State) (a : Address) (v : Word) : (s.pokeWord a v).regs = s.regs :=
  (State.writeByte_regs _ _ _).trans (State.writeByte_regs _ _ _)
@[simp] theorem State.pokeWord_pcSeg (s : State) (a : Address) (v : Word) : (s.pokeWord a v).pcSeg = s.pcSeg :=
  (State.writeByte_pcSeg _ _ _).trans (State.writeByte_pcSeg _ _ _)
@[simp] theorem State.pokeWord_pcOff (s : State) (a : Address) (v : Word) : (s.pokeWord a v).pcOff = s.pcOff :=
  (State.writeByte_pcOff _ _ _).trans (State.writeByte_pcOff _ _ _)
@[simp] theorem State.pokeWord_fcw (s : State) (a : Address) (v : Word) : (s.pokeWord a v).fcw = s.fcw :=
  (State.writeByte_fcw _ _ _).trans (State.writeByte_fcw _ _ _)
@[simp] theorem State.pokeWord_psapSeg (s : State) (a : Address) (v : Word) : (s.pokeWord a v).psapSeg = s.psapSeg :=
  (State.writeByte_psapSeg _ _ _).trans (State.writeByte_psapSeg _ _ _)
@[simp] theorem State.pokeWord_psapOff (s : State) (a : Address) (v : Word) : (s.pokeWord a v).psapOff = s.psapOff :=
  (State.writeByte_psapOff _ _ _).trans (State.writeByte_psapOff _ _ _)
@[simp] theorem State.pokeWord_refresh (s : State) (a : Address) (v : Word) : (s.pokeWord a v).refresh = s.refresh :=
  (State.writeByte_refresh _ _ _).trans (State.writeByte_refresh _ _ _)
@[simp] theorem State.pokeWord_moHigh (s : State) (a : Address) (v : Word) : (s.pokeWord a v).moHigh = s.moHigh :=
  (State.writeByte_moHigh _ _ _).trans (State.writeByte_moHigh _ _ _)
@[simp] theorem State.pokeWord_halted (s : State) (a : Address) (v : Word) : (s.pokeWord a v).halted = s.halted :=
  (State.writeByte_halted _ _ _).trans (State.writeByte_halted _ _ _)
@[simp] theorem State.pokeWord_nmiPending (s : State) (a : Address) (v : Word) : (s.pokeWord a v).nmiPending = s.nmiPending :=
  (State.writeByte_nmiPending _ _ _).trans (State.writeByte_nmiPending _ _ _)
@[simp] theorem State.pokeWord_segtrapRequest (s : State) (a : Address) (v : Word) : (s.pokeWord a v).segtrapRequest = s.segtrapRequest :=
  (State.writeByte_segtrapRequest _ _ _).trans (State.writeByte_segtrapRequest _ _ _)
@[simp] theorem State.pokeWord_viRequest (s : State) (a : Address) (v : Word) : (s.pokeWord a v).viRequest = s.viRequest :=
  (State.writeByte_viRequest _ _ _).trans (State.writeByte_viRequest _ _ _)
@[simp] theorem State.pokeWord_nviRequest (s : State) (a : Address) (v : Word) : (s.pokeWord a v).nviRequest = s.nviRequest :=
  (State.writeByte_nviRequest _ _ _).trans (State.writeByte_nviRequest _ _ _)
@[simp] theorem State.pokeWord_resetRequest (s : State) (a : Address) (v : Word) : (s.pokeWord a v).resetRequest = s.resetRequest :=
  (State.writeByte_resetRequest _ _ _).trans (State.writeByte_resetRequest _ _ _)
@[simp] theorem State.pokeWord_arrivals (s : State) (a : Address) (v : Word) : (s.pokeWord a v).arrivals = s.arrivals :=
  (State.writeByte_arrivals _ _ _).trans (State.writeByte_arrivals _ _ _)
@[simp] theorem State.pokeWord_idIn (s : State) (a : Address) (v : Word) : (s.pokeWord a v).idIn = s.idIn :=
  (State.writeByte_idIn _ _ _).trans (State.writeByte_idIn _ _ _)
@[simp] theorem State.pokeWord_ioIn (s : State) (a : Address) (v : Word) : (s.pokeWord a v).ioIn = s.ioIn :=
  (State.writeByte_ioIn _ _ _).trans (State.writeByte_ioIn _ _ _)
@[simp] theorem State.pokeWord_epuIn (s : State) (a : Address) (v : Word) : (s.pokeWord a v).epuIn = s.epuIn :=
  (State.writeByte_epuIn _ _ _).trans (State.writeByte_epuIn _ _ _)
@[simp] theorem State.pokeWord_miIn (s : State) (a : Address) (v : Word) : (s.pokeWord a v).miIn = s.miIn :=
  (State.writeByte_miIn _ _ _).trans (State.writeByte_miIn _ _ _)
@[simp] theorem State.pokeWord_ioLog (s : State) (a : Address) (v : Word) : (s.pokeWord a v).ioLog = s.ioLog :=
  (State.writeByte_ioLog _ _ _).trans (State.writeByte_ioLog _ _ _)
@[simp] theorem State.pokeWord_epuLog (s : State) (a : Address) (v : Word) : (s.pokeWord a v).epuLog = s.epuLog :=
  (State.writeByte_epuLog _ _ _).trans (State.writeByte_epuLog _ _ _)
@[simp] theorem State.pokeWord_freeCount (s : State) (a : Address) (v : Word) : (s.pokeWord a v).freeCount = s.freeCount :=
  (State.writeByte_freeCount _ _ _).trans (State.writeByte_freeCount _ _ _)

@[simp] theorem State.pokeLong_cfg (s : State) (a : Address) (v : Long) : (s.pokeLong a v).cfg = s.cfg :=
  (State.pokeWord_cfg _ _ _).trans (State.pokeWord_cfg _ _ _)
@[simp] theorem State.pokeLong_regs (s : State) (a : Address) (v : Long) : (s.pokeLong a v).regs = s.regs :=
  (State.pokeWord_regs _ _ _).trans (State.pokeWord_regs _ _ _)
@[simp] theorem State.pokeLong_pcSeg (s : State) (a : Address) (v : Long) : (s.pokeLong a v).pcSeg = s.pcSeg :=
  (State.pokeWord_pcSeg _ _ _).trans (State.pokeWord_pcSeg _ _ _)
@[simp] theorem State.pokeLong_pcOff (s : State) (a : Address) (v : Long) : (s.pokeLong a v).pcOff = s.pcOff :=
  (State.pokeWord_pcOff _ _ _).trans (State.pokeWord_pcOff _ _ _)
@[simp] theorem State.pokeLong_fcw (s : State) (a : Address) (v : Long) : (s.pokeLong a v).fcw = s.fcw :=
  (State.pokeWord_fcw _ _ _).trans (State.pokeWord_fcw _ _ _)
@[simp] theorem State.pokeLong_psapSeg (s : State) (a : Address) (v : Long) : (s.pokeLong a v).psapSeg = s.psapSeg :=
  (State.pokeWord_psapSeg _ _ _).trans (State.pokeWord_psapSeg _ _ _)
@[simp] theorem State.pokeLong_psapOff (s : State) (a : Address) (v : Long) : (s.pokeLong a v).psapOff = s.psapOff :=
  (State.pokeWord_psapOff _ _ _).trans (State.pokeWord_psapOff _ _ _)
@[simp] theorem State.pokeLong_refresh (s : State) (a : Address) (v : Long) : (s.pokeLong a v).refresh = s.refresh :=
  (State.pokeWord_refresh _ _ _).trans (State.pokeWord_refresh _ _ _)
@[simp] theorem State.pokeLong_moHigh (s : State) (a : Address) (v : Long) : (s.pokeLong a v).moHigh = s.moHigh :=
  (State.pokeWord_moHigh _ _ _).trans (State.pokeWord_moHigh _ _ _)
@[simp] theorem State.pokeLong_halted (s : State) (a : Address) (v : Long) : (s.pokeLong a v).halted = s.halted :=
  (State.pokeWord_halted _ _ _).trans (State.pokeWord_halted _ _ _)
@[simp] theorem State.pokeLong_nmiPending (s : State) (a : Address) (v : Long) : (s.pokeLong a v).nmiPending = s.nmiPending :=
  (State.pokeWord_nmiPending _ _ _).trans (State.pokeWord_nmiPending _ _ _)
@[simp] theorem State.pokeLong_segtrapRequest (s : State) (a : Address) (v : Long) : (s.pokeLong a v).segtrapRequest = s.segtrapRequest :=
  (State.pokeWord_segtrapRequest _ _ _).trans (State.pokeWord_segtrapRequest _ _ _)
@[simp] theorem State.pokeLong_viRequest (s : State) (a : Address) (v : Long) : (s.pokeLong a v).viRequest = s.viRequest :=
  (State.pokeWord_viRequest _ _ _).trans (State.pokeWord_viRequest _ _ _)
@[simp] theorem State.pokeLong_nviRequest (s : State) (a : Address) (v : Long) : (s.pokeLong a v).nviRequest = s.nviRequest :=
  (State.pokeWord_nviRequest _ _ _).trans (State.pokeWord_nviRequest _ _ _)
@[simp] theorem State.pokeLong_resetRequest (s : State) (a : Address) (v : Long) : (s.pokeLong a v).resetRequest = s.resetRequest :=
  (State.pokeWord_resetRequest _ _ _).trans (State.pokeWord_resetRequest _ _ _)
@[simp] theorem State.pokeLong_arrivals (s : State) (a : Address) (v : Long) : (s.pokeLong a v).arrivals = s.arrivals :=
  (State.pokeWord_arrivals _ _ _).trans (State.pokeWord_arrivals _ _ _)
@[simp] theorem State.pokeLong_idIn (s : State) (a : Address) (v : Long) : (s.pokeLong a v).idIn = s.idIn :=
  (State.pokeWord_idIn _ _ _).trans (State.pokeWord_idIn _ _ _)
@[simp] theorem State.pokeLong_ioIn (s : State) (a : Address) (v : Long) : (s.pokeLong a v).ioIn = s.ioIn :=
  (State.pokeWord_ioIn _ _ _).trans (State.pokeWord_ioIn _ _ _)
@[simp] theorem State.pokeLong_epuIn (s : State) (a : Address) (v : Long) : (s.pokeLong a v).epuIn = s.epuIn :=
  (State.pokeWord_epuIn _ _ _).trans (State.pokeWord_epuIn _ _ _)
@[simp] theorem State.pokeLong_miIn (s : State) (a : Address) (v : Long) : (s.pokeLong a v).miIn = s.miIn :=
  (State.pokeWord_miIn _ _ _).trans (State.pokeWord_miIn _ _ _)
@[simp] theorem State.pokeLong_ioLog (s : State) (a : Address) (v : Long) : (s.pokeLong a v).ioLog = s.ioLog :=
  (State.pokeWord_ioLog _ _ _).trans (State.pokeWord_ioLog _ _ _)
@[simp] theorem State.pokeLong_epuLog (s : State) (a : Address) (v : Long) : (s.pokeLong a v).epuLog = s.epuLog :=
  (State.pokeWord_epuLog _ _ _).trans (State.pokeWord_epuLog _ _ _)
@[simp] theorem State.pokeLong_freeCount (s : State) (a : Address) (v : Long) : (s.pokeLong a v).freeCount = s.freeCount :=
  (State.pokeWord_freeCount _ _ _).trans (State.pokeWord_freeCount _ _ _)

end Sys2Proof.Machine
end

