-- ==== Sys2Proof/Laws/Registers.lean ====
section
/-! SUPPORT. Reading registers after writing them (10_state R20 to R22). -/

namespace Sys2Proof.Machine

/-- Different fields name different registers, in each mode of each variant. -/
theorem regSlot_inj (v : Variant) (sn : Bool) (f g : RegField) (h : regSlot v sn f = regSlot v sn g) : f = g := by
  cases v <;> cases sn <;> (revert f g h; decide +kernel)

theorem slot_inj {s : State} {f g : RegField} (h : s.slot f = s.slot g) : f = g := regSlot_inj _ _ _ _ h

theorem slot_ne {s : State} {f g : RegField} (h : f ≠ g) : s.slot f ≠ s.slot g := fun e => h (slot_inj e)

/-- The bank of a register depends on the variant and on S/N only. -/
theorem slot_congr {s t : State} (hc : t.cfg = s.cfg) (hf : t.fcw.sn = s.fcw.sn) (f : RegField) : t.slot f = s.slot f := by
  unfold State.slot; rw [hc, hf]

theorem vector_get_set (v : Vector Word 18) (i j : Fin 18) (x : Word) :
    (v.set i.val x i.isLt).get j = if j = i then x else v.get j := by
  have hg : ∀ (w : Vector Word 18), w.get j = w[j.val] := fun _ => rfl
  rw [hg, hg, Vector.getElem_set]
  simp only [Fin.ext_iff, eq_comm]

/-- All that writing a register does to the registers. -/
theorem writeSlot_get (s : State) (i j : Fin 18) (v : Word) :
    (s.writeSlot i v).regs.get j = if j = i then v else s.regs.get j := vector_get_set _ _ _ _

theorem writeW_get (s : State) (f : RegField) (j : Fin 18) (v : Word) :
    (s.writeW f v).regs.get j = if j = s.slot f then v else s.regs.get j := vector_get_set _ _ _ _

theorem readW_writeW (s : State) (f g : RegField) (v : Word) :
    (s.writeW f v).readW g = if g = f then v else s.readW g := by
  unfold State.readW
  rw [slot_congr (t := s.writeW f v) (s := s) rfl rfl, writeW_get]
  by_cases h : g = f
  · simp [h]
  · simp [h, slot_ne h]

@[simp] theorem readW_writeW_self (s : State) (f : RegField) (v : Word) : (s.writeW f v).readW f = v := by
  simp [readW_writeW]

theorem readW_writeW_ne (s : State) {f g : RegField} (v : Word) (h : g ≠ f) : (s.writeW f v).readW g = s.readW g := by
  simp [readW_writeW, h]

/-- Two words are equal when their halves are. -/
theorem halves_eta (w : Word) : w.extractLsb' 8 8 ++ w.extractLsb' 0 8 = w := by
  apply BitVec.eq_of_getLsbD_eq; intro i hi
  rw [BitVec.getLsbD_append]
  simp only [BitVec.getLsbD_extractLsb']
  by_cases h : i < 8
  · simp [h]
  · have : i - 8 < 8 := by omega
    have e : 8 + (i - 8) = i := by omega
    simp [h, this, e]

@[simp] theorem append_high (a b : Byte) : (a ++ b).extractLsb' 8 8 = a := by
  apply BitVec.eq_of_getLsbD_eq; intro i hi
  simp only [BitVec.getLsbD_extractLsb', BitVec.getLsbD_append]
  have : ¬ (8 + i < 8) := by omega
  simp [hi]

@[simp] theorem append_low (a b : Byte) : (a ++ b).extractLsb' 0 8 = b := by
  apply BitVec.eq_of_getLsbD_eq; intro i hi
  simp only [BitVec.getLsbD_extractLsb', BitVec.getLsbD_append]
  simp [hi]

@[simp] theorem append_high16 (a b : Word) : (a ++ b).extractLsb' 16 16 = a := by
  apply BitVec.eq_of_getLsbD_eq; intro i hi
  simp only [BitVec.getLsbD_extractLsb', BitVec.getLsbD_append]
  simp [hi]

@[simp] theorem append_low16 (a b : Word) : (a ++ b).extractLsb' 0 16 = b := by
  apply BitVec.eq_of_getLsbD_eq; intro i hi
  simp only [BitVec.getLsbD_extractLsb', BitVec.getLsbD_append]
  simp [hi]

theorem halves16_eta (w : Long) : w.extractLsb' 16 16 ++ w.extractLsb' 0 16 = w := by
  apply BitVec.eq_of_getLsbD_eq; intro i hi
  rw [BitVec.getLsbD_append]
  simp only [BitVec.getLsbD_extractLsb']
  by_cases h : i < 16
  · simp [h]
  · have : i - 16 < 16 := by omega
    have e : 16 + (i - 16) = i := by omega
    simp [h, this, e]

theorem halves32_eta (w : Quad) : w.extractLsb' 32 32 ++ w.extractLsb' 0 32 = w := by
  apply BitVec.eq_of_getLsbD_eq; intro i hi
  rw [BitVec.getLsbD_append]
  simp only [BitVec.getLsbD_extractLsb']
  by_cases h : i < 32
  · simp [h]
  · have : i - 32 < 32 := by omega
    have e : 32 + (i - 32) = i := by omega
    simp [h, this, e]

/-- A byte register after it is written. -/
@[simp] theorem readB_writeB_self (s : State) (f : RegField) (v : Byte) : (s.writeB f v).readB f = v := by
  unfold State.readB State.writeB
  cases h : f.getLsbD 3
  · simp only [Bool.false_eq_true, if_false, readW_writeW_self, append_high]
  · simp only [if_true, readW_writeW_self, append_low]

/-- The other half of the word keeps its value. -/
theorem readB_writeB_other (s : State) (f : RegField) (v : Byte) : (s.writeB f v).readB (f ^^^ 8#4) = s.readB (f ^^^ 8#4) := by
  have hh : byteHome (f ^^^ 8#4) = byteHome f := by revert f; decide
  have hb : (f ^^^ 8#4).getLsbD 3 = !f.getLsbD 3 := by revert f; decide
  unfold State.readB State.writeB
  rw [hh, hb]
  cases h : f.getLsbD 3
  · simp only [Bool.not_false, Bool.false_eq_true, if_false, if_true, readW_writeW_self, append_low]
  · simp only [Bool.not_true, Bool.false_eq_true, if_false, if_true, readW_writeW_self, append_high]

/-- All that writing a byte register does to the registers. -/
theorem writeB_get (s : State) (f : RegField) (j : Fin 18) (v : Byte) (h : j ≠ s.slot (byteHome f)) :
    (s.writeB f v).regs.get j = s.regs.get j := by
  unfold State.writeB; simp [writeW_get, h]

theorem succ_ne (f : RegField) : f + 1#4 ≠ f := by revert f; decide

@[simp] theorem readL_writeL_self (s : State) (f : RegField) (v : Long) : (s.writeL f v).readL f = v := by
  unfold State.readL State.writeL
  rw [readW_writeW_self, readW_writeW_ne _ _ (succ_ne f).symm, readW_writeW_self, halves16_eta]

theorem writeL_get (s : State) (f : RegField) (j : Fin 18) (v : Long) (h : j ≠ s.slot f) (h' : j ≠ s.slot (f + 1#4)) :
    (s.writeL f v).regs.get j = s.regs.get j := by
  unfold State.writeL
  rw [writeW_get, slot_congr (t := s.writeW f _) (s := s) rfl rfl]
  simp [h', writeW_get, h]

theorem readL_writeL_ne (s : State) (f g : RegField) (v : Long) (h : ∀ x ∈ [g, g + 1#4], ∀ y ∈ [f, f + 1#4], x ≠ y) :
    (s.writeL f v).readL g = s.readL g := by
  unfold State.readL State.writeL
  simp only [readW_writeW]
  simp_all

@[simp] theorem readQ_writeQ_self (s : State) (f : RegField) (v : Quad) : (s.writeQ f v).readQ f = v := by
  unfold State.readQ State.writeQ
  rw [readL_writeL_self, readL_writeL_ne _ _ _ _ (by revert f; decide), readL_writeL_self, halves32_eta]

theorem writeQ_get (s : State) (f : RegField) (j : Fin 18) (v : Quad) (h : j ≠ s.slot f) (h1 : j ≠ s.slot (f + 1#4))
    (h2 : j ≠ s.slot (f + 2#4)) (h3 : j ≠ s.slot (f + 2#4 + 1#4)) : (s.writeQ f v).regs.get j = s.regs.get j := by
  unfold State.writeQ
  have e : ∀ g, (s.writeL f (v.extractLsb' 32 32)).slot g = s.slot g := fun g => slot_congr rfl rfl g
  rw [writeL_get _ _ _ _ (by rw [e]; exact h2) (by rw [e]; exact h3), writeL_get _ _ _ _ h h1]

/-- Moving a pointer adds to its offset and keeps its segment (20_memory R75, R85). -/
@[simp] theorem pointer_stepPointer (s : State) (f : RegField) (k : Word) :
    (s.stepPointer f k).pointer f = (s.pointer f).add k := by
  unfold State.stepPointer State.pointer State.offField Address.add
  have hs : ∀ g v, (s.writeW g v).segmented = s.segmented := fun _ _ => rfl
  simp only [hs]
  by_cases h : s.segmented
  · simp only [h, if_true]
    rw [readW_writeW_self, readW_writeW_ne _ _ (succ_ne f).symm]
  · simp only [h]; simp; rfl

end Sys2Proof.Machine
end

