-- ==== Sys2Proof/Laws/Memory.lean ====
section
/-! SUPPORT. Memory: reading after writing, and the canonical form, which every memory operation keeps. -/

namespace Sys2Proof.Machine

/-! ### The list -/

theorem Memory.read_cons (c : Host.Cell) (m : Memory) (a : Nat) :
    Memory.read (c :: m) a = if c.1 = a then c.2 else Memory.read m a := rfl

theorem Memory.read_erase (m : Memory) (k a : Nat) :
    Memory.read (Memory.erase m k) a = if a = k then 0#8 else Memory.read m a := by
  induction m with
  | nil => exact (ite_self (0#8)).symm
  | cons c m ih =>
    unfold Memory.erase at ih ⊢
    rw [List.filter_cons, Memory.read_cons]
    by_cases h : c.1 = k
    · rw [if_neg (by simp [h]), ih]
      by_cases e : a = k
      · simp [e]
      · simp [e, h, Ne.symm e]
    · rw [if_pos (by simp [h]), Memory.read_cons, ih]
      by_cases e : c.1 = a
      · have : a ≠ k := fun x => h (e.trans x)
        simp [e, this]
      · simp [e]

theorem Memory.erase_keys (m : Memory) (k : Nat) : ∀ c ∈ Memory.erase m k, c.1 ≠ k := by
  intro c hc
  have := (List.mem_filter.mp hc).2
  simpa using this

theorem Memory.read_place (m : Memory) (k a : Nat) (v : Byte) (h : ∀ c ∈ m, c.1 ≠ k) :
    Memory.read (Memory.place m k v) a = if a = k then v else Memory.read m a := by
  induction m with
  | nil =>
    show (if k = a then v else 0#8) = if a = k then v else 0#8
    by_cases e : a = k
    · rw [if_pos e, if_pos e.symm]
    · rw [if_neg e, if_neg (Ne.symm e)]
  | cons c m ih =>
    have hc : c.1 ≠ k := h c (List.mem_cons_self ..)
    have ih' := ih fun d hd => h d (List.mem_cons_of_mem _ hd)
    unfold Memory.place
    split
    · rw [Memory.read_cons]
      by_cases e : a = k
      · rw [if_pos e, if_pos e.symm]
      · rw [if_neg e, if_neg (Ne.symm e)]
    · rw [Memory.read_cons, Memory.read_cons, ih']
      by_cases e : c.1 = a
      · have : a ≠ k := fun x => hc (e.trans x)
        rw [if_pos e, if_neg this, if_pos e]
      · rw [if_neg e, if_neg e]

/-- All that a write does to the reads. -/
theorem Memory.read_write (m : Memory) (k a : Nat) (v : Byte) :
    Memory.read (Memory.write m k v) a = if a = k then v else Memory.read m a := by
  unfold Memory.write
  split
  · rename_i h; rw [Memory.read_erase, h]
  · rw [Memory.read_place _ _ _ _ (Memory.erase_keys m k), Memory.read_erase]
    by_cases e : a = k <;> simp [e]

/-! ### The canonical form -/

theorem Memory.wf_cons (c : Host.Cell) (m : Memory) :
    Memory.wf (c :: m) = true ↔ c.1 < 2 ^ 23 ∧ c.2 ≠ 0#8 ∧ (∀ d ∈ m, c.1 < d.1) ∧ Memory.wf m = true := by
  induction m generalizing c with
  | nil => simp [Memory.wf]
  | cons d m ih =>
    unfold Memory.wf
    constructor
    · intro h
      simp only [Bool.and_eq_true, decide_eq_true_eq, bne_iff_ne] at h
      obtain ⟨⟨⟨h1, h2⟩, h3⟩, h4⟩ := h
      refine ⟨h1, h2, ?_, h4⟩
      intro e he
      rcases List.mem_cons.mp he with rfl | he
      · exact h3
      · exact Nat.lt_trans h3 (((ih d).mp h4).2.2.1 e he)
    · rintro ⟨h1, h2, h3, h4⟩
      simp only [Bool.and_eq_true, decide_eq_true_eq, bne_iff_ne]
      exact ⟨⟨⟨h1, h2⟩, h3 d (List.mem_cons_self ..)⟩, h4⟩

theorem Memory.wf_erase (m : Memory) (k : Nat) (h : Memory.wf m = true) : Memory.wf (Memory.erase m k) = true := by
  induction m with
  | nil => rfl
  | cons c m ih =>
    obtain ⟨h1, h2, h3, h4⟩ := (Memory.wf_cons c m).mp h
    unfold Memory.erase at ih ⊢
    rw [List.filter_cons]
    split
    · exact (Memory.wf_cons _ _).mpr ⟨h1, h2, fun d hd => h3 d (List.mem_of_mem_filter hd), ih h4⟩
    · exact ih h4

theorem Memory.mem_place (m : Memory) (k : Nat) (v : Byte) : ∀ d ∈ Memory.place m k v, d = (k, v) ∨ d ∈ m := by
  induction m with
  | nil => intro d hd; exact .inl (List.mem_singleton.mp hd)
  | cons c m ih =>
    intro d hd
    unfold Memory.place at hd
    split at hd
    · rcases List.mem_cons.mp hd with e | e
      · exact .inl e
      · exact .inr e
    · rcases List.mem_cons.mp hd with e | e
      · exact .inr (e ▸ List.mem_cons_self ..)
      · rcases ih d e with e | e
        · exact .inl e
        · exact .inr (List.mem_cons_of_mem _ e)

theorem Memory.wf_place (m : Memory) (k : Nat) (v : Byte) (h : Memory.wf m = true) (hk : k < 2 ^ 23) (hv : v ≠ 0#8)
    (hm : ∀ c ∈ m, c.1 ≠ k) : Memory.wf (Memory.place m k v) = true := by
  induction m with
  | nil => exact (Memory.wf_cons _ _).mpr ⟨hk, hv, fun d hd => (List.not_mem_nil hd).elim, rfl⟩
  | cons c m ih =>
    obtain ⟨h1, h2, h3, h4⟩ := (Memory.wf_cons c m).mp h
    have hc : c.1 ≠ k := hm c (List.mem_cons_self ..)
    unfold Memory.place
    split
    · rename_i hlt
      refine (Memory.wf_cons _ _).mpr ⟨hk, hv, ?_, h⟩
      intro d hd
      rcases List.mem_cons.mp hd with rfl | hd
      · exact hlt
      · exact Nat.lt_trans hlt (h3 d hd)
    · rename_i hlt
      refine (Memory.wf_cons _ _).mpr ⟨h1, h2, ?_, ih h4 fun d hd => hm d (List.mem_cons_of_mem _ hd)⟩
      intro d hd
      rcases Memory.mem_place m k v d hd with rfl | hd
      · exact Nat.lt_of_le_of_ne (Nat.le_of_not_lt hlt) hc
      · exact h3 d hd

theorem Memory.wf_write (m : Memory) (k : Nat) (v : Byte) (h : Memory.wf m = true) (hk : k < 2 ^ 23) :
    Memory.wf (Memory.write m k v) = true := by
  unfold Memory.write
  split
  · exact Memory.wf_erase m k h
  · rename_i hv
    exact Memory.wf_place _ k v (Memory.wf_erase m k h) hk hv (Memory.erase_keys m k)

/-! ### Addresses -/

theorem Address.key_lt (a : Address) : a.key < 2 ^ 23 := by
  unfold Address.key
  have h1 := a.seg.isLt
  have h2 := a.off.isLt
  omega

/-- Different addresses have different keys. -/
theorem Address.key_inj {a b : Address} (h : a.key = b.key) : a = b := by
  unfold Address.key at h
  have h1 := a.off.isLt
  have h2 := b.off.isLt
  have hs : a.seg.toNat = b.seg.toNat := by omega
  have ho : a.off.toNat = b.off.toNat := by omega
  cases a; cases b
  simp only [Address.mk.injEq]
  exact ⟨BitVec.eq_of_toNat_eq hs, BitVec.eq_of_toNat_eq ho⟩

theorem Address.add_add (a : Address) (x y : Word) : (a.add x).add y = a.add (x + y) := by
  unfold Address.add; simp [BitVec.add_assoc]

theorem Address.add_inj {a : Address} {x y : Word} (h : (a.add x).key = (a.add y).key) : x = y := by
  have := congrArg Address.off (Address.key_inj h)
  simpa [Address.add] using this

theorem Address.add_zero (a : Address) : a.add 0#16 = a := by unfold Address.add; simp

/-! ### Reading after writing -/

/-- All that writing a byte does to memory. -/
theorem writeByte_read (s : State) (a : Address) (v : Byte) (k : Nat) :
    (s.writeByte a v).mem.read k = if k = a.key then v else s.mem.read k := Memory.read_write _ _ _ _

@[simp] theorem readByte_writeByte_self (s : State) (a : Address) (v : Byte) : (s.writeByte a v).readByte a = v := by
  unfold State.readByte; simp [writeByte_read]

theorem readByte_writeByte_ne (s : State) {a b : Address} (v : Byte) (h : b ≠ a) :
    (s.writeByte a v).readByte b = s.readByte b := by
  unfold State.readByte; rw [writeByte_read, if_neg fun e => h (Address.key_inj e)]

/-- All that writing a word does to memory. -/
theorem pokeWord_read (s : State) (a : Address) (v : Word) (k : Nat) :
    (s.pokeWord a v).mem.read k = if k = (a.add 1#16).key then v.extractLsb' 0 8
      else if k = a.key then v.extractLsb' 8 8 else s.mem.read k := by
  unfold State.pokeWord; rw [writeByte_read, writeByte_read]

theorem Address.add_one_ne (a : Address) : a.key ≠ (a.add 1#16).key := by
  intro h
  have := congrArg Address.off (Address.key_inj h)
  simp [Address.add] at this

/-- A word is read as it was written. -/
@[simp] theorem peekWord_pokeWord_self (s : State) (a : Address) (v : Word) : (s.pokeWord a v).peekWord a = v := by
  unfold State.peekWord State.readByte
  rw [pokeWord_read, pokeWord_read, if_neg a.add_one_ne, if_pos rfl, if_pos rfl, halves_eta]

/-- A word elsewhere is untouched: its bytes are not the two written. -/
theorem peekWord_pokeWord_add (s : State) (a : Address) (x y : Word) (v : Word) (h0 : x ≠ y) (h1 : x ≠ y + 1#16)
    (h2 : x + 1#16 ≠ y) : (s.pokeWord (a.add y) v).peekWord (a.add x) = s.peekWord (a.add x) := by
  unfold State.peekWord State.readByte
  rw [pokeWord_read, pokeWord_read, Address.add_add, Address.add_add]
  have e0 : (a.add x).key ≠ (a.add y).key := fun e => h0 (Address.add_inj e)
  have e1 : (a.add x).key ≠ (a.add (y + 1#16)).key := fun e => h1 (Address.add_inj e)
  have e2 : (a.add (x + 1#16)).key ≠ (a.add y).key := fun e => h2 (Address.add_inj e)
  have e3 : (a.add (x + 1#16)).key ≠ (a.add (y + 1#16)).key := fun e => h0 (by
    have := Address.add_inj e
    simpa using this)
  rw [if_neg e1, if_neg e0, if_neg e3, if_neg e2]

@[simp] theorem peekLong_pokeLong_self (s : State) (a : Address) (v : Long) : (s.pokeLong a v).peekLong a = v := by
  unfold State.peekLong State.pokeLong
  rw [peekWord_pokeWord_self]
  conv_lhs => rw [show a = a.add 0#16 from a.add_zero.symm]
  rw [Address.add_add]
  have := peekWord_pokeWord_add (s.pokeWord (a.add 0#16) (v.extractLsb' 16 16)) a 0#16 (0#16 + 2#16)
    (v.extractLsb' 0 16) (by decide) (by decide) (by decide)
  rw [this, peekWord_pokeWord_self, halves16_eta]

/-! ### The bytes an access covers -/

theorem keyAt_zero (a : Address) : a.keyAt 0 = a.key := by unfold Address.keyAt; rw [Address.add_zero]

theorem pokeWord_frame (s : State) (a : Address) (v : Word) (k : Nat) (h0 : k ≠ a.keyAt 0) (h1 : k ≠ a.keyAt 1) :
    (s.pokeWord a v).mem.read k = s.mem.read k := by
  rw [pokeWord_read, if_neg (show k ≠ (a.add 1#16).key from h1), if_neg (keyAt_zero a ▸ h0)]

theorem pokeLong_frame (s : State) (a : Address) (v : Long) (k : Nat) (h0 : k ≠ a.keyAt 0) (h1 : k ≠ a.keyAt 1)
    (h2 : k ≠ a.keyAt 2) (h3 : k ≠ a.keyAt 3) : (s.pokeLong a v).mem.read k = s.mem.read k := by
  unfold State.pokeLong
  rw [pokeWord_frame _ _ _ _ (by rw [keyAt_zero]; exact h2) (by
    unfold Address.keyAt; rw [Address.add_add]; exact h3), pokeWord_frame _ _ _ _ h0 h1]

/-! ### Writing keeps the form -/

theorem writeByte_wf (s : State) (a : Address) (v : Byte) (h : s.mem.wf = true) : (s.writeByte a v).mem.wf = true :=
  Memory.wf_write _ _ _ h a.key_lt

theorem pokeWord_wf (s : State) (a : Address) (v : Word) (h : s.mem.wf = true) : (s.pokeWord a v).mem.wf = true :=
  writeByte_wf _ _ _ (writeByte_wf _ _ _ h)

theorem pokeLong_wf (s : State) (a : Address) (v : Long) (h : s.mem.wf = true) : (s.pokeLong a v).mem.wf = true :=
  pokeWord_wf _ _ _ (pokeWord_wf _ _ _ h)

theorem reset_wf : State.reset.mem.wf = true := rfl

/-! ### What the checked accesses can do -/

theorem readWord_ok {s : State} {a : Address} {v : Word} (h : s.readWord a = .ok v) : a.even = true ∧ v = s.peekWord a := by
  unfold State.readWord at h
  split at h
  · rename_i e; exact ⟨e, (Except.ok.inj h).symm⟩
  · cases h

theorem readLong_ok {s : State} {a : Address} {v : Long} (h : s.readLong a = .ok v) : a.even = true ∧ v = s.peekLong a := by
  unfold State.readLong at h
  split at h
  · rename_i e; exact ⟨e, (Except.ok.inj h).symm⟩
  · cases h

theorem writeWord_ok {s t : State} {a : Address} {v : Word} (h : s.writeWord a v = .ok t) :
    a.even = true ∧ t = s.pokeWord a v := by
  unfold State.writeWord at h
  split at h
  · rename_i e; exact ⟨e, (Except.ok.inj h).symm⟩
  · cases h

theorem writeLong_ok {s t : State} {a : Address} {v : Long} (h : s.writeLong a v = .ok t) :
    a.even = true ∧ t = s.pokeLong a v := by
  unfold State.writeLong at h
  split at h
  · rename_i e; exact ⟨e, (Except.ok.inj h).symm⟩
  · cases h

theorem readWord_even {s : State} {a : Address} (h : a.even = true) : s.readWord a = .ok (s.peekWord a) := if_pos h
theorem readLong_even {s : State} {a : Address} (h : a.even = true) : s.readLong a = .ok (s.peekLong a) := if_pos h
theorem writeWord_even {s : State} {a : Address} {v : Word} (h : a.even = true) :
    s.writeWord a v = .ok (s.pokeWord a v) := if_pos h
theorem writeLong_even {s : State} {a : Address} {v : Long} (h : a.even = true) :
    s.writeLong a v = .ok (s.pokeLong a v) := if_pos h

end Sys2Proof.Machine
end

