-- ==== Sys2Proof/Laws/Ops.lean ====
section
/-! SUPPORT. What each shared operation can do, said once: the answers of operand reads and writes, of pushes
and pops, of the program status loads and of the privilege checks. -/

namespace Sys2Proof.Machine

/-! ### Answers -/

theorem Exec.bind_ok {α β : Type} {x : Exec α} {f : α → Exec β} {r : β} :
    (x >>= f) = .ok r ↔ ∃ a, x = .ok a ∧ f a = .ok r := by
  cases x with
  | error e => exact ⟨nofun, nofun⟩
  | ok a => exact ⟨fun h => ⟨a, rfl, h⟩, fun ⟨_, h1, h2⟩ => by cases h1; exact h2⟩

@[simp] theorem finish_ok (s : State) : finish (.ok s) = .next s := rfl
@[simp] theorem finish_fault (f : Fault) : finish (.error (.fault f)) = .fault f := rfl
@[simp] theorem finish_refused (r : Refusal) : finish (.error (.refused r)) = .refused r := rfl

theorem finish_next {e : Exec State} {t : State} : finish e = .next t ↔ e = .ok t := by
  match e with
  | .ok s => simp [finish]
  | .error (.fault f) => simp [finish]
  | .error (.refused r) => simp [finish]

theorem require_ok {b : Bool} {r : Refusal} : require b r = .ok () ↔ b = true := by
  cases b <;> simp [require]

/-! ### Operands -/

/-- A guarded answer. -/
theorem guarded_ok {α : Type} {b : Bool} {x v : α} {e : Stop} :
    (if b = true then Except.ok x else Except.error e) = .ok v ↔ b = true ∧ v = x := by
  cases b
  · exact ⟨nofun, nofun⟩
  · exact ⟨fun h => ⟨rfl, (Except.ok.inj h).symm⟩, fun h => congrArg Except.ok h.2.symm⟩

theorem memW_ok {s : State} {m : Mem} {v : Word} :
    s.memW m = .ok v ↔ (s.ea m).even = true ∧ v = s.peekWord (s.ea m) := guarded_ok

theorem memL_ok {s : State} {m : Mem} {v : Long} :
    s.memL m = .ok v ↔ (s.ea m).even = true ∧ v = s.peekLong (s.ea m) := guarded_ok

theorem putW_ok {s t : State} {d : RM} {v : Word} (h : s.putW d v = .ok t) :
    (∃ f, d = .r f ∧ t = s.writeW f v) ∨
      ∃ m, d = .mem m ∧ (s.ea m).even = true ∧ t = s.pokeWord (s.ea m) v := by
  cases d with
  | r f => exact .inl ⟨f, rfl, by simpa [State.putW] using h.symm⟩
  | mem m =>
    refine .inr ⟨m, rfl, ?_⟩
    simp only [State.putW, State.writeWord] at h
    split at h
    · exact ⟨by assumption, by simpa using h.symm⟩
    · cases h

theorem putB_ok {s t : State} {d : RM} {v : Byte} (h : s.putB d v = .ok t) :
    (∃ f, d = .r f ∧ t = s.writeB f v) ∨ ∃ m, d = .mem m ∧ t = s.writeByte (s.ea m) v := by
  cases d with
  | r f => exact .inl ⟨f, rfl, by simpa [State.putB] using h.symm⟩
  | mem m => exact .inr ⟨m, rfl, by simpa [State.putB] using h.symm⟩

/-- Writing a byte destination leaves the other byte of its word register. -/
theorem putB_keepsOther {s t : State} {d : RM} {v : Byte} (h : s.putB d v = .ok t) : KeepsOther s t d := by
  rintro f rfl
  cases h
  exact readB_writeB_other s f v

/-- The parity flag of the meanings is the parity of the claims. -/
theorem parityEven_eq : ∀ b : Byte, parityEven b = evenOnes b := by decide +kernel

/-- A destination that can be read can be written. -/
theorem putW_of_rmW {s : State} {d : RM} {a : Word} (h : s.rmW d = .ok a) (v : Word) : ∃ t, s.putW d v = .ok t := by
  cases d with
  | r f => exact ⟨_, rfl⟩
  | mem m =>
    have he := (memW_ok.mp h).1
    exact ⟨s.pokeWord (s.ea m) v, by simp [State.putW, State.writeWord, he]⟩

theorem twoOpB_ok {s : State} {op : Alu 8} {d : RegField} {src : Src 8} {b : Byte} (h : s.srcB src = .ok b) :
    s.twoOpB op d src = .ok ((s.writeB d (op (s.readB d) b s.flags).1).setFlags (op (s.readB d) b s.flags).2) := by
  unfold State.twoOpB
  rw [h]
  rfl

theorem twoOpW_ok {s : State} {op : Alu 16} {d : RegField} {src : Src 16} {b : Word} (h : s.srcW src = .ok b) :
    s.twoOpW op d src = .ok ((s.writeW d (op (s.readW d) b s.flags).1).setFlags (op (s.readW d) b s.flags).2) := by
  unfold State.twoOpW
  rw [h]
  rfl

theorem twoOpL_ok {s : State} {op : Alu 32} {d : RegField} {src : Src 32} {b : Long} (h : s.srcL src = .ok b) :
    s.twoOpL op d src = .ok ((s.writeL d (op (s.readL d) b s.flags).1).setFlags (op (s.readL d) b s.flags).2) := by
  unfold State.twoOpL
  rw [h]
  rfl

theorem oneOpB_ok {s : State} {op : Alu1 8} {d : RM} {a : Byte} (h : s.rmB d = .ok a) :
    ∃ t, s.putB d (op a s.flags).1 = .ok t ∧ s.oneOpB op d = .ok (t.setFlags (op a s.flags).2) := by
  cases d with
  | r f => exact ⟨_, rfl, by unfold State.oneOpB; rw [h]; rfl⟩
  | mem m => exact ⟨_, rfl, by unfold State.oneOpB; rw [h]; rfl⟩

theorem oneOpW_ok {s : State} {op : Alu1 16} {d : RM} {a : Word} (h : s.rmW d = .ok a) :
    ∃ t, s.putW d (op a s.flags).1 = .ok t ∧ s.oneOpW op d = .ok (t.setFlags (op a s.flags).2) := by
  obtain ⟨t, ht⟩ := putW_of_rmW h (op a s.flags).1
  refine ⟨t, ht, ?_⟩
  unfold State.oneOpW
  rw [h]
  show (s.putW d (op a s.flags).1 >>= _) = _
  rw [ht]
  rfl

/-! ### Stacks -/

theorem pushWord_ok {s t : State} {sp : RegField} {v : Word} :
    s.pushWord sp v = .ok t ↔ (((s.stepPointer sp (-2#16)).pointer sp).even = true ∧
      t = (s.stepPointer sp (-2#16)).pokeWord ((s.stepPointer sp (-2#16)).pointer sp) v) := guarded_ok

theorem pushLong_ok {s t : State} {sp : RegField} {v : Long} :
    s.pushLong sp v = .ok t ↔ (((s.stepPointer sp (-4#16)).pointer sp).even = true ∧
      t = (s.stepPointer sp (-4#16)).pokeLong ((s.stepPointer sp (-4#16)).pointer sp) v) := guarded_ok

theorem popWord_ok {s : State} {sp : RegField} (h : (s.pointer sp).even = true) :
    s.popWord sp = .ok (s.peekWord (s.pointer sp), s.stepPointer sp 2#16) := by
  unfold State.popWord State.readWord
  rw [if_pos h]
  rfl

theorem popLong_ok {s : State} {sp : RegField} (h : (s.pointer sp).even = true) :
    s.popLong sp = .ok (s.peekLong (s.pointer sp), s.stepPointer sp 4#16) := by
  unfold State.popLong State.readLong
  rw [if_pos h]
  rfl

/-! ### Program status -/

theorem psaAddr_even (s : State) (k : Nat) (h : k % 2 = 0) : (s.psaAddr k).even = true := by
  have h1 : ((s.psapOff ++ 0#8) + BitVec.ofNat 16 k).toNat % 2 = 0 := by
    rw [BitVec.toNat_add, BitVec.toNat_append, BitVec.toNat_ofNat, BitVec.toNat_ofNat, Nat.shiftLeft_eq]
    simp only [Nat.zero_mod, Nat.or_zero]
    omega
  have h2 : ((s.psapOff ++ 0#8) + BitVec.ofNat 16 k).getLsbD 0 = false := by
    rw [BitVec.getLsbD, Nat.testBit_zero, h1]
    rfl
  exact congrArg (· == false) h2

/-- The reads of the Program Status Area never stop. -/
theorem loadStatus_z8002 {s : State} (h : s.cfg.variant = .z8002) (e : Event) :
    s.loadStatus e = .ok ((s.loadFcw (s.peekWord (s.psaAddr (e.fcwOffset .z8002)))).setPcOff
      (s.peekWord (s.psaAddr (e.pcOffset .z8002)))) := by
  have h1 : e.fcwOffset .z8002 % 2 = 0 := by cases e <;> simp [Event.fcwOffset, Event.entry]
  have h2 : e.pcOffset .z8002 % 2 = 0 := by cases e <;> simp [Event.pcOffset, Event.entry]
  unfold State.loadStatus
  rw [h, readWord_even (psaAddr_even s _ h1)]
  show (s.readWord (s.psaAddr (e.pcOffset .z8002)) >>= _) = _
  rw [readWord_even (psaAddr_even s _ h2)]
  rfl

theorem loadStatus_z8001 {s : State} (h : s.cfg.variant = .z8001) (e : Event) :
    s.loadStatus e = .ok ((s.loadFcw (s.peekWord (s.psaAddr (e.fcwOffset .z8001)))).setPc
      (segOfWord (s.peekWord (s.psaAddr (e.pcOffset .z8001)))) (s.peekWord (s.psaAddr (e.pcOffset .z8001 + 2)))) := by
  have h1 : e.fcwOffset .z8001 % 2 = 0 := by cases e <;> simp [Event.fcwOffset, Event.entry]
  have h2 : e.pcOffset .z8001 % 2 = 0 := by cases e <;> simp [Event.pcOffset, Event.entry, Nat.add_mod]
  unfold State.loadStatus
  rw [h, readWord_even (psaAddr_even s _ h1)]
  show (s.readWord (s.psaAddr (e.pcOffset .z8001)) >>= _) = _
  rw [readWord_even (psaAddr_even s _ h2)]
  show (s.readWord (s.psaAddr (e.pcOffset .z8001 + 2)) >>= _) = _
  rw [readWord_even (psaAddr_even s _ (by omega))]
  rfl

/-! ### Privilege -/

theorem privileged_system {s : State} (h : s.fcw.sn = true) (i : Instr) (body : Exec State) :
    s.privileged i body = body := by
  unfold State.privileged
  rw [if_pos h]

theorem privileged_normal {s : State} (h : s.fcw.sn = false) (i : Instr) (body : Exec State) :
    s.privileged i body = s.decodeTrap .privileged i := by
  unfold State.privileged
  rw [if_neg (by simp [h])]

/-- The instructions that the parameter `inPortZero` reserves. -/
theorem reservedPort_iff (s : State) (i : Instr) : s.reservedPort i = true ↔
    s.cfg.inPortZero = .reserved ∧ ∃ d, i = .inp d (.ir 0#4) ∨ i = .inpb d (.ir 0#4) := by
  unfold State.reservedPort
  rw [Bool.and_eq_true, beq_iff_eq]
  refine and_congr_right fun _ => ?_
  split <;> simp_all

/-- The PC that a decode-time trap saves, by the policy. -/
theorem decodeTrapPc_eq (s : State) (len : Nat) : s.decodeTrapPc len =
    if s.cfg.trapPcPolicy = .afterFirstWord then s.pcOff - BitVec.ofNat 16 (2 * (len - 1)) else s.pcOff := by
  unfold State.decodeTrapPc
  cases s.cfg.trapPcPolicy <;> rfl

theorem extended_enabled {s : State} (h : s.fcw.epa = true) (i : Instr) (body : Exec State) :
    s.extended i body = body := by
  unfold State.extended
  rw [if_pos h]

theorem extended_disabled {s : State} (h : s.fcw.epa = false) (i : Instr) (body : Exec State) :
    s.extended i body = s.decodeTrap .extended i := by
  unfold State.extended
  rw [if_neg (by simp [h])]

/-! ### Blocks -/

theorem again_pc (s : State) (done : Bool) : (s.again done).pcOff = if done then s.pcOff else s.pcOff - 4#16 := by
  unfold State.again
  cases done <;> rfl

theorem again_regs (s : State) (done : Bool) : (s.again done).regs = s.regs := by
  unfold State.again
  cases done <;> rfl

theorem again_mem (s : State) (done : Bool) : (s.again done).mem = s.mem := by
  unfold State.again
  cases done <;> rfl

theorem again_fcw (s : State) (done : Bool) : (s.again done).fcw = s.fcw := by
  unfold State.again
  cases done <;> rfl

end Sys2Proof.Machine
end

