-- ==== Sys2Proof/Laws/PerInstr.lean ====
section
/-! SUPPORT. Statements about every instruction as syntax, one lemma per constructor. -/

namespace Sys2Proof.Laws.EncodeLength

/-- An instruction is one to four words long (30_encoding R120). -/
def Statement (i : Instr) : Prop := 1 ≤ lengthWords i ∧ lengthWords i ≤ 4
theorem of_length {i : Instr} {k : Nat} (h : lengthWords i = k) (h1 : 1 ≤ k) (h4 : k ≤ 4) : Statement i :=
  ⟨h ▸ h1, h ▸ h4⟩

/-- An instruction whose words are those of `ws` and perhaps one more. -/
theorem of_bounds {i : Instr} {ws : List Word} (h : encode i = ws) (b : 1 ≤ ws.length ∧ ws.length ≤ 4) : Statement i := by
  unfold Statement lengthWords
  rw [h]
  exact b

theorem addr_words_length (a : Addr) : 1 ≤ a.words.length ∧ a.words.length ≤ 2 := by
  cases a <;> simp [Addr.words]

theorem mem_words_length (m : Mem) : m.words.length ≤ 2 := by
  cases m with
  | ir r => exact Nat.zero_le _
  | da a => exact (addr_words_length a).2
  | x a i => exact (addr_words_length a).2

theorem rm_words_length (x : RM) : x.words.length ≤ 2 := by
  cases x with
  | r f => exact Nat.zero_le _
  | mem m => exact mem_words_length m

theorem encMem_length (op : BitVec 6) (x : Mem) (f : BitVec 4) :
    1 ≤ (encMem op x f).length ∧ (encMem op x f).length ≤ 3 := by
  have := mem_words_length x
  simp only [encMem, List.length_cons]
  omega

theorem encRM_length (op : BitVec 6) (x : RM) (f : BitVec 4) :
    1 ≤ (encRM op x f).length ∧ (encRM op x f).length ≤ 4 := by
  have := rm_words_length x
  simp only [encRM, List.length_cons]
  omega

theorem encStack_length (op : BitVec 6) (sp : RegField) (x : RM) :
    1 ≤ (encStack op sp x).length ∧ (encStack op sp x).length ≤ 4 := by
  have := rm_words_length x
  simp only [encStack, List.length_cons]
  omega

theorem encMem_length4 (op : BitVec 6) (x : Mem) (f : BitVec 4) :
    1 ≤ (encMem op x f).length ∧ (encMem op x f).length ≤ 4 :=
  ⟨(encMem_length op x f).1, Nat.le_succ_of_le (encMem_length op x f).2⟩

theorem encMem_snoc_length (op : BitVec 6) (x : Mem) (f : BitVec 4) (w : Word) :
    1 ≤ (encMem op x f ++ [w]).length ∧ (encMem op x f ++ [w]).length ≤ 4 := by
  have := encMem_length op x f
  simp only [List.length_append, List.length_cons, List.length_nil]
  omega

theorem encMemB_length (op opB : BitVec 6) (x : MemB) (f : BitVec 4) :
    1 ≤ (encMemB op opB x f).length ∧ (encMemB op opB x f).length ≤ 4 := by
  cases x with
  | mem m => exact encMem_length4 _ _ _
  | ba b d => simp [encMemB]
  | bx b i => simp [encMemB]

theorem encSrc_length {n : Nat} {imm : BitVec n → List Word} (h : ∀ v, (imm v).length ≤ 2) (op : BitVec 6)
    (x : Src n) (f : BitVec 4) : 1 ≤ (encSrc imm op x f).length ∧ (encSrc imm op x f).length ≤ 4 := by
  cases x with
  | r g => simp [encSrc]
  | im v =>
    have := h v
    simp only [encSrc, List.length_cons]
    omega
  | mem m => exact encMem_length4 _ _ _

theorem encLdSrc_length {n : Nat} {imm : BitVec n → List Word} (h : ∀ v, (imm v).length ≤ 2) (op opB : BitVec 6)
    (x : LdSrc n) (f : BitVec 4) : 1 ≤ (encLdSrc imm op opB x f).length ∧ (encLdSrc imm op opB x f).length ≤ 4 := by
  cases x with
  | r g => simp [encLdSrc]
  | im v =>
    have := h v
    simp only [encLdSrc, List.length_cons]
    omega
  | mem m => exact encMemB_length _ _ _ _

theorem two_words_length (a b : Word) (m : Mem) :
    1 ≤ (a :: b :: m.words).length ∧ (a :: b :: m.words).length ≤ 4 := by
  have := mem_words_length m
  simp only [List.length_cons]
  omega

theorem one_addr_length (w : Word) (a : Addr) : 1 ≤ (w :: a.words).length ∧ (w :: a.words).length ≤ 4 := by
  have := addr_words_length a
  simp only [List.length_cons]
  omega

theorem imm8_length (v : BitVec 8) : (imm8Words v).length ≤ 2 := Nat.le_succ 1
theorem imm16_length (v : BitVec 16) : ([v] : List Word).length ≤ 2 := Nat.le_succ 1
theorem imm32_length (v : BitVec 32) : (imm32Words v).length ≤ 2 := Nat.le_refl 2

theorem clrb (d : RM) : Statement (.clrb d) := of_bounds rfl (encRM_length _ _ _)

theorem clr (d : RM) : Statement (.clr d) := of_bounds rfl (encRM_length _ _ _)

theorem exb (d : RegField) (src : RM) : Statement (.exb d src) := of_bounds rfl (encRM_length _ _ _)

theorem ex (d : RegField) (src : RM) : Statement (.ex d src) := of_bounds rfl (encRM_length _ _ _)

theorem ldbLoad (d : RegField) (src : LdSrc 8) : Statement (.ldbLoad d src) := of_bounds rfl (encLdSrc_length imm8_length _ _ _ _)

theorem ldbStore (dst : MemB) (f : RegField) : Statement (.ldbStore dst f) := of_bounds rfl (encMemB_length _ _ _ _)

theorem ldbStoreImm (dst : Mem) (v : BitVec 8) : Statement (.ldbStoreImm dst v) := of_bounds rfl (encMem_snoc_length _ _ _ _)

theorem ldbShort (d : RegField) (v : BitVec 8) : Statement (.ldbShort d v) := of_length (k := 1) rfl (by decide) (by decide)

theorem ldLoad (d : RegField) (src : LdSrc 16) : Statement (.ldLoad d src) := of_bounds rfl (encLdSrc_length imm16_length _ _ _ _)

theorem ldStore (dst : MemB) (f : RegField) : Statement (.ldStore dst f) := of_bounds rfl (encMemB_length _ _ _ _)

theorem ldStoreImm (dst : Mem) (v : BitVec 16) : Statement (.ldStoreImm dst v) := of_bounds rfl (encMem_snoc_length _ _ _ _)

theorem ldlLoad (d : RegField) (src : LdSrc 32) : Statement (.ldlLoad d src) := of_bounds rfl (encLdSrc_length imm32_length _ _ _ _)

theorem ldlStore (dst : MemB) (f : RegField) : Statement (.ldlStore dst f) := of_bounds rfl (encMemB_length _ _ _ _)

theorem lda (d : RegField) (src : EaSrc) : Statement (.lda d src) := by
  cases src with
  | da a => exact of_bounds rfl (one_addr_length _ _)
  | x a i => exact of_bounds rfl (one_addr_length _ _)
  | ba b disp => exact of_length (k := 2) rfl (by decide) (by decide)
  | bx b i => exact of_length (k := 2) rfl (by decide) (by decide)

theorem ldar (d : RegField) (disp : Word) : Statement (.ldar d disp) := of_length (k := 2) rfl (by decide) (by decide)

theorem ldk (d : RegField) (v : BitVec 4) : Statement (.ldk d v) := of_length (k := 1) rfl (by decide) (by decide)

theorem ldmLoad (d : RegField) (src : Mem) (num : BitVec 4) : Statement (.ldmLoad d src num) := of_bounds rfl (two_words_length _ _ _)

theorem ldmStore (dst : Mem) (f : RegField) (num : BitVec 4) : Statement (.ldmStore dst f num) := of_bounds rfl (two_words_length _ _ _)

theorem ldrbLoad (d : RegField) (disp : Word) : Statement (.ldrbLoad d disp) := of_length (k := 2) rfl (by decide) (by decide)

theorem ldrbStore (disp : Word) (f : RegField) : Statement (.ldrbStore disp f) := of_length (k := 2) rfl (by decide) (by decide)

theorem ldrLoad (d : RegField) (disp : Word) : Statement (.ldrLoad d disp) := of_length (k := 2) rfl (by decide) (by decide)

theorem ldrStore (disp : Word) (f : RegField) : Statement (.ldrStore disp f) := of_length (k := 2) rfl (by decide) (by decide)

theorem ldrlLoad (d : RegField) (disp : Word) : Statement (.ldrlLoad d disp) := of_length (k := 2) rfl (by decide) (by decide)

theorem ldrlStore (disp : Word) (f : RegField) : Statement (.ldrlStore disp f) := of_length (k := 2) rfl (by decide) (by decide)

theorem pop (dst : RM) (sp : RegField) : Statement (.pop dst sp) := of_bounds rfl (encStack_length _ _ _)

theorem popl (dst : RM) (sp : RegField) : Statement (.popl dst sp) := of_bounds rfl (encStack_length _ _ _)

theorem push (sp : RegField) (src : Src 16) : Statement (.push sp src) := by
  cases src with
  | r f => exact of_bounds rfl (encStack_length _ _ _)
  | im v => exact of_length (k := 2) rfl (by decide) (by decide)
  | mem m => exact of_bounds rfl (encStack_length _ _ _)

theorem pushl (sp : RegField) (src : RM) : Statement (.pushl sp src) := of_bounds rfl (encStack_length _ _ _)

theorem adcb (d : RegField) (f : RegField) : Statement (.adcb d f) := of_length (k := 1) rfl (by decide) (by decide)

theorem adc (d : RegField) (f : RegField) : Statement (.adc d f) := of_length (k := 1) rfl (by decide) (by decide)

theorem addb (d : RegField) (src : Src 8) : Statement (.addb d src) := of_bounds rfl (encSrc_length imm8_length _ _ _)

theorem add (d : RegField) (src : Src 16) : Statement (.add d src) := of_bounds rfl (encSrc_length imm16_length _ _ _)

theorem addl (d : RegField) (src : Src 32) : Statement (.addl d src) := of_bounds rfl (encSrc_length imm32_length _ _ _)

theorem sbcb (d : RegField) (f : RegField) : Statement (.sbcb d f) := of_length (k := 1) rfl (by decide) (by decide)

theorem sbc (d : RegField) (f : RegField) : Statement (.sbc d f) := of_length (k := 1) rfl (by decide) (by decide)

theorem subb (d : RegField) (src : Src 8) : Statement (.subb d src) := of_bounds rfl (encSrc_length imm8_length _ _ _)

theorem sub (d : RegField) (src : Src 16) : Statement (.sub d src) := of_bounds rfl (encSrc_length imm16_length _ _ _)

theorem subl (d : RegField) (src : Src 32) : Statement (.subl d src) := of_bounds rfl (encSrc_length imm32_length _ _ _)

theorem cpb (d : RegField) (src : Src 8) : Statement (.cpb d src) := of_bounds rfl (encSrc_length imm8_length _ _ _)

theorem cp (d : RegField) (src : Src 16) : Statement (.cp d src) := of_bounds rfl (encSrc_length imm16_length _ _ _)

theorem cpl (d : RegField) (src : Src 32) : Statement (.cpl d src) := of_bounds rfl (encSrc_length imm32_length _ _ _)

theorem cpbMemImm (dst : Mem) (v : BitVec 8) : Statement (.cpbMemImm dst v) := of_bounds rfl (encMem_snoc_length _ _ _ _)

theorem cpMemImm (dst : Mem) (v : BitVec 16) : Statement (.cpMemImm dst v) := of_bounds rfl (encMem_snoc_length _ _ _ _)

theorem incb (d : RM) (num : BitVec 4) : Statement (.incb d num) := of_bounds rfl (encRM_length _ _ _)

theorem inc (d : RM) (num : BitVec 4) : Statement (.inc d num) := of_bounds rfl (encRM_length _ _ _)

theorem decb (d : RM) (num : BitVec 4) : Statement (.decb d num) := of_bounds rfl (encRM_length _ _ _)

theorem dec (d : RM) (num : BitVec 4) : Statement (.dec d num) := of_bounds rfl (encRM_length _ _ _)

theorem negb (d : RM) : Statement (.negb d) := of_bounds rfl (encRM_length _ _ _)

theorem neg (d : RM) : Statement (.neg d) := of_bounds rfl (encRM_length _ _ _)

theorem dab (d : RegField) : Statement (.dab d) := of_length (k := 1) rfl (by decide) (by decide)

theorem extsb (d : RegField) : Statement (.extsb d) := of_length (k := 1) rfl (by decide) (by decide)

theorem exts (d : RegField) : Statement (.exts d) := of_length (k := 1) rfl (by decide) (by decide)

theorem extsl (d : RegField) : Statement (.extsl d) := of_length (k := 1) rfl (by decide) (by decide)

theorem mult (d : RegField) (src : Src 16) : Statement (.mult d src) := of_bounds rfl (encSrc_length imm16_length _ _ _)

theorem multl (d : RegField) (src : Src 32) : Statement (.multl d src) := of_bounds rfl (encSrc_length imm32_length _ _ _)

theorem div (d : RegField) (src : Src 16) : Statement (.div d src) := of_bounds rfl (encSrc_length imm16_length _ _ _)

theorem divl (d : RegField) (src : Src 32) : Statement (.divl d src) := of_bounds rfl (encSrc_length imm32_length _ _ _)

theorem andb (d : RegField) (src : Src 8) : Statement (.andb d src) := of_bounds rfl (encSrc_length imm8_length _ _ _)

theorem and (d : RegField) (src : Src 16) : Statement (.and d src) := of_bounds rfl (encSrc_length imm16_length _ _ _)

theorem orb (d : RegField) (src : Src 8) : Statement (.orb d src) := of_bounds rfl (encSrc_length imm8_length _ _ _)

theorem or (d : RegField) (src : Src 16) : Statement (.or d src) := of_bounds rfl (encSrc_length imm16_length _ _ _)

theorem xorb (d : RegField) (src : Src 8) : Statement (.xorb d src) := of_bounds rfl (encSrc_length imm8_length _ _ _)

theorem xor (d : RegField) (src : Src 16) : Statement (.xor d src) := of_bounds rfl (encSrc_length imm16_length _ _ _)

theorem comb (d : RM) : Statement (.comb d) := of_bounds rfl (encRM_length _ _ _)

theorem com (d : RM) : Statement (.com d) := of_bounds rfl (encRM_length _ _ _)

theorem testb (d : RM) : Statement (.testb d) := of_bounds rfl (encRM_length _ _ _)

theorem test (d : RM) : Statement (.test d) := of_bounds rfl (encRM_length _ _ _)

theorem testl (d : RM) : Statement (.testl d) := of_bounds rfl (encRM_length _ _ _)

theorem call (dst : Mem) : Statement (.call dst) := of_bounds rfl (encMem_length4 _ _ _)

theorem calr (disp : BitVec 12) : Statement (.calr disp) := of_length (k := 1) rfl (by decide) (by decide)

theorem djnz (r : RegField) (disp : BitVec 7) : Statement (.djnz r disp) := of_length (k := 1) rfl (by decide) (by decide)

theorem dbjnz (r : RegField) (disp : BitVec 7) : Statement (.dbjnz r disp) := of_length (k := 1) rfl (by decide) (by decide)

theorem iret : Statement .iret := of_length (k := 1) rfl (by decide) (by decide)

theorem jp (cc : BitVec 4) (dst : Mem) : Statement (.jp cc dst) := of_bounds rfl (encMem_length4 _ _ _)

theorem jr (cc : BitVec 4) (disp : BitVec 8) : Statement (.jr cc disp) := of_length (k := 1) rfl (by decide) (by decide)

theorem ret (cc : BitVec 4) : Statement (.ret cc) := of_length (k := 1) rfl (by decide) (by decide)

theorem sc (v : BitVec 8) : Statement (.sc v) := of_length (k := 1) rfl (by decide) (by decide)

theorem bitb (d : RM) (num : BitVec 4) : Statement (.bitb d num) := of_bounds rfl (encRM_length _ _ _)

theorem bit (d : RM) (num : BitVec 4) : Statement (.bit d num) := of_bounds rfl (encRM_length _ _ _)

theorem bitbDyn (d : RegField) (f : RegField) : Statement (.bitbDyn d f) := of_length (k := 2) rfl (by decide) (by decide)

theorem bitDyn (d : RegField) (f : RegField) : Statement (.bitDyn d f) := of_length (k := 2) rfl (by decide) (by decide)

theorem resb (d : RM) (num : BitVec 4) : Statement (.resb d num) := of_bounds rfl (encRM_length _ _ _)

theorem res (d : RM) (num : BitVec 4) : Statement (.res d num) := of_bounds rfl (encRM_length _ _ _)

theorem resbDyn (d : RegField) (f : RegField) : Statement (.resbDyn d f) := of_length (k := 2) rfl (by decide) (by decide)

theorem resDyn (d : RegField) (f : RegField) : Statement (.resDyn d f) := of_length (k := 2) rfl (by decide) (by decide)

theorem setb (d : RM) (num : BitVec 4) : Statement (.setb d num) := of_bounds rfl (encRM_length _ _ _)

theorem set (d : RM) (num : BitVec 4) : Statement (.set d num) := of_bounds rfl (encRM_length _ _ _)

theorem setbDyn (d : RegField) (f : RegField) : Statement (.setbDyn d f) := of_length (k := 2) rfl (by decide) (by decide)

theorem setDyn (d : RegField) (f : RegField) : Statement (.setDyn d f) := of_length (k := 2) rfl (by decide) (by decide)

theorem tccb (cc : BitVec 4) (d : RegField) : Statement (.tccb cc d) := of_length (k := 1) rfl (by decide) (by decide)

theorem tcc (cc : BitVec 4) (d : RegField) : Statement (.tcc cc d) := of_length (k := 1) rfl (by decide) (by decide)

theorem tsetb (d : RM) : Statement (.tsetb d) := of_bounds rfl (encRM_length _ _ _)

theorem tset (d : RM) : Statement (.tset d) := of_bounds rfl (encRM_length _ _ _)

theorem rlb (d : RegField) (two : Bool) : Statement (.rlb d two) := of_length (k := 1) rfl (by decide) (by decide)

theorem rl (d : RegField) (two : Bool) : Statement (.rl d two) := of_length (k := 1) rfl (by decide) (by decide)

theorem rlcb (d : RegField) (two : Bool) : Statement (.rlcb d two) := of_length (k := 1) rfl (by decide) (by decide)

theorem rlc (d : RegField) (two : Bool) : Statement (.rlc d two) := of_length (k := 1) rfl (by decide) (by decide)

theorem rrb (d : RegField) (two : Bool) : Statement (.rrb d two) := of_length (k := 1) rfl (by decide) (by decide)

theorem rr (d : RegField) (two : Bool) : Statement (.rr d two) := of_length (k := 1) rfl (by decide) (by decide)

theorem rrcb (d : RegField) (two : Bool) : Statement (.rrcb d two) := of_length (k := 1) rfl (by decide) (by decide)

theorem rrc (d : RegField) (two : Bool) : Statement (.rrc d two) := of_length (k := 1) rfl (by decide) (by decide)

theorem rldb (link : RegField) (src : RegField) : Statement (.rldb link src) := of_length (k := 1) rfl (by decide) (by decide)

theorem rrdb (link : RegField) (src : RegField) : Statement (.rrdb link src) := of_length (k := 1) rfl (by decide) (by decide)

theorem sdab (d : RegField) (f : RegField) : Statement (.sdab d f) := of_length (k := 2) rfl (by decide) (by decide)

theorem sda (d : RegField) (f : RegField) : Statement (.sda d f) := of_length (k := 2) rfl (by decide) (by decide)

theorem sdal (d : RegField) (f : RegField) : Statement (.sdal d f) := of_length (k := 2) rfl (by decide) (by decide)

theorem sdlb (d : RegField) (f : RegField) : Statement (.sdlb d f) := of_length (k := 2) rfl (by decide) (by decide)

theorem sdl (d : RegField) (f : RegField) : Statement (.sdl d f) := of_length (k := 2) rfl (by decide) (by decide)

theorem sdll (d : RegField) (f : RegField) : Statement (.sdll d f) := of_length (k := 2) rfl (by decide) (by decide)

theorem slab (d : RegField) (count : BitVec 8) : Statement (.slab d count) := of_length (k := 2) rfl (by decide) (by decide)

theorem sla (d : RegField) (count : BitVec 16) : Statement (.sla d count) := of_length (k := 2) rfl (by decide) (by decide)

theorem slal (d : RegField) (count : BitVec 16) : Statement (.slal d count) := of_length (k := 2) rfl (by decide) (by decide)

theorem sllb (d : RegField) (count : BitVec 8) : Statement (.sllb d count) := of_length (k := 2) rfl (by decide) (by decide)

theorem sll (d : RegField) (count : BitVec 16) : Statement (.sll d count) := of_length (k := 2) rfl (by decide) (by decide)

theorem slll (d : RegField) (count : BitVec 16) : Statement (.slll d count) := of_length (k := 2) rfl (by decide) (by decide)

theorem srab (d : RegField) (count : BitVec 8) : Statement (.srab d count) := of_length (k := 2) rfl (by decide) (by decide)

theorem sra (d : RegField) (count : BitVec 16) : Statement (.sra d count) := of_length (k := 2) rfl (by decide) (by decide)

theorem sral (d : RegField) (count : BitVec 16) : Statement (.sral d count) := of_length (k := 2) rfl (by decide) (by decide)

theorem srlb (d : RegField) (count : BitVec 8) : Statement (.srlb d count) := of_length (k := 2) rfl (by decide) (by decide)

theorem srl (d : RegField) (count : BitVec 16) : Statement (.srl d count) := of_length (k := 2) rfl (by decide) (by decide)

theorem srll (d : RegField) (count : BitVec 16) : Statement (.srll d count) := of_length (k := 2) rfl (by decide) (by decide)

theorem cpdb (f : RegField) (cnt : RegField) (d : RegField) (cc : BitVec 4) : Statement (.cpdb f cnt d cc) := of_length (k := 2) rfl (by decide) (by decide)

theorem cpd (f : RegField) (cnt : RegField) (d : RegField) (cc : BitVec 4) : Statement (.cpd f cnt d cc) := of_length (k := 2) rfl (by decide) (by decide)

theorem cpdrb (f : RegField) (cnt : RegField) (d : RegField) (cc : BitVec 4) : Statement (.cpdrb f cnt d cc) := of_length (k := 2) rfl (by decide) (by decide)

theorem cpdr (f : RegField) (cnt : RegField) (d : RegField) (cc : BitVec 4) : Statement (.cpdr f cnt d cc) := of_length (k := 2) rfl (by decide) (by decide)

theorem cpib (f : RegField) (cnt : RegField) (d : RegField) (cc : BitVec 4) : Statement (.cpib f cnt d cc) := of_length (k := 2) rfl (by decide) (by decide)

theorem cpi (f : RegField) (cnt : RegField) (d : RegField) (cc : BitVec 4) : Statement (.cpi f cnt d cc) := of_length (k := 2) rfl (by decide) (by decide)

theorem cpirb (f : RegField) (cnt : RegField) (d : RegField) (cc : BitVec 4) : Statement (.cpirb f cnt d cc) := of_length (k := 2) rfl (by decide) (by decide)

theorem cpir (f : RegField) (cnt : RegField) (d : RegField) (cc : BitVec 4) : Statement (.cpir f cnt d cc) := of_length (k := 2) rfl (by decide) (by decide)

theorem cpsdb (f : RegField) (cnt : RegField) (d : RegField) (cc : BitVec 4) : Statement (.cpsdb f cnt d cc) := of_length (k := 2) rfl (by decide) (by decide)

theorem cpsd (f : RegField) (cnt : RegField) (d : RegField) (cc : BitVec 4) : Statement (.cpsd f cnt d cc) := of_length (k := 2) rfl (by decide) (by decide)

theorem cpsdrb (f : RegField) (cnt : RegField) (d : RegField) (cc : BitVec 4) : Statement (.cpsdrb f cnt d cc) := of_length (k := 2) rfl (by decide) (by decide)

theorem cpsdr (f : RegField) (cnt : RegField) (d : RegField) (cc : BitVec 4) : Statement (.cpsdr f cnt d cc) := of_length (k := 2) rfl (by decide) (by decide)

theorem cpsib (f : RegField) (cnt : RegField) (d : RegField) (cc : BitVec 4) : Statement (.cpsib f cnt d cc) := of_length (k := 2) rfl (by decide) (by decide)

theorem cpsi (f : RegField) (cnt : RegField) (d : RegField) (cc : BitVec 4) : Statement (.cpsi f cnt d cc) := of_length (k := 2) rfl (by decide) (by decide)

theorem cpsirb (f : RegField) (cnt : RegField) (d : RegField) (cc : BitVec 4) : Statement (.cpsirb f cnt d cc) := of_length (k := 2) rfl (by decide) (by decide)

theorem cpsir (f : RegField) (cnt : RegField) (d : RegField) (cc : BitVec 4) : Statement (.cpsir f cnt d cc) := of_length (k := 2) rfl (by decide) (by decide)

theorem lddb (f : RegField) (cnt : RegField) (d : RegField) : Statement (.lddb f cnt d) := of_length (k := 2) rfl (by decide) (by decide)

theorem ldd (f : RegField) (cnt : RegField) (d : RegField) : Statement (.ldd f cnt d) := of_length (k := 2) rfl (by decide) (by decide)

theorem lddrb (f : RegField) (cnt : RegField) (d : RegField) : Statement (.lddrb f cnt d) := of_length (k := 2) rfl (by decide) (by decide)

theorem lddr (f : RegField) (cnt : RegField) (d : RegField) : Statement (.lddr f cnt d) := of_length (k := 2) rfl (by decide) (by decide)

theorem ldib (f : RegField) (cnt : RegField) (d : RegField) : Statement (.ldib f cnt d) := of_length (k := 2) rfl (by decide) (by decide)

theorem ldi (f : RegField) (cnt : RegField) (d : RegField) : Statement (.ldi f cnt d) := of_length (k := 2) rfl (by decide) (by decide)

theorem ldirb (f : RegField) (cnt : RegField) (d : RegField) : Statement (.ldirb f cnt d) := of_length (k := 2) rfl (by decide) (by decide)

theorem ldir (f : RegField) (cnt : RegField) (d : RegField) : Statement (.ldir f cnt d) := of_length (k := 2) rfl (by decide) (by decide)

theorem trdb (d : RegField) (cnt : RegField) (f : RegField) : Statement (.trdb d cnt f) := of_length (k := 2) rfl (by decide) (by decide)

theorem trdrb (d : RegField) (cnt : RegField) (f : RegField) : Statement (.trdrb d cnt f) := of_length (k := 2) rfl (by decide) (by decide)

theorem trib (d : RegField) (cnt : RegField) (f : RegField) : Statement (.trib d cnt f) := of_length (k := 2) rfl (by decide) (by decide)

theorem trirb (d : RegField) (cnt : RegField) (f : RegField) : Statement (.trirb d cnt f) := of_length (k := 2) rfl (by decide) (by decide)

theorem trtdb (d : RegField) (cnt : RegField) (f : RegField) : Statement (.trtdb d cnt f) := of_length (k := 2) rfl (by decide) (by decide)

theorem trtdrb (d : RegField) (cnt : RegField) (f : RegField) : Statement (.trtdrb d cnt f) := of_length (k := 2) rfl (by decide) (by decide)

theorem trtib (d : RegField) (cnt : RegField) (f : RegField) : Statement (.trtib d cnt f) := of_length (k := 2) rfl (by decide) (by decide)

theorem trtirb (d : RegField) (cnt : RegField) (f : RegField) : Statement (.trtirb d cnt f) := of_length (k := 2) rfl (by decide) (by decide)

theorem inpb (d : RegField) (p : Port) : Statement (.inpb d p) := by
  cases p with
  | da q => exact of_length (k := 2) rfl (by decide) (by decide)
  | ir f => exact of_length (k := 1) rfl (by decide) (by decide)

theorem inp (d : RegField) (p : Port) : Statement (.inp d p) := by
  cases p with
  | da q => exact of_length (k := 2) rfl (by decide) (by decide)
  | ir f => exact of_length (k := 1) rfl (by decide) (by decide)

theorem outb (p : Port) (f : RegField) : Statement (.outb p f) := by
  cases p with
  | da q => exact of_length (k := 2) rfl (by decide) (by decide)
  | ir f => exact of_length (k := 1) rfl (by decide) (by decide)

theorem out (p : Port) (f : RegField) : Statement (.out p f) := by
  cases p with
  | da q => exact of_length (k := 2) rfl (by decide) (by decide)
  | ir f => exact of_length (k := 1) rfl (by decide) (by decide)

theorem sinb (d : RegField) (p : Word) : Statement (.sinb d p) := of_length (k := 2) rfl (by decide) (by decide)

theorem sin (d : RegField) (p : Word) : Statement (.sin d p) := of_length (k := 2) rfl (by decide) (by decide)

theorem soutb (p : Word) (f : RegField) : Statement (.soutb p f) := of_length (k := 2) rfl (by decide) (by decide)

theorem sout (p : Word) (f : RegField) : Statement (.sout p f) := of_length (k := 2) rfl (by decide) (by decide)

theorem indb (f : RegField) (cnt : RegField) (d : RegField) : Statement (.indb f cnt d) := of_length (k := 2) rfl (by decide) (by decide)

theorem ind (f : RegField) (cnt : RegField) (d : RegField) : Statement (.ind f cnt d) := of_length (k := 2) rfl (by decide) (by decide)

theorem indrb (f : RegField) (cnt : RegField) (d : RegField) : Statement (.indrb f cnt d) := of_length (k := 2) rfl (by decide) (by decide)

theorem indr (f : RegField) (cnt : RegField) (d : RegField) : Statement (.indr f cnt d) := of_length (k := 2) rfl (by decide) (by decide)

theorem inib (f : RegField) (cnt : RegField) (d : RegField) : Statement (.inib f cnt d) := of_length (k := 2) rfl (by decide) (by decide)

theorem ini (f : RegField) (cnt : RegField) (d : RegField) : Statement (.ini f cnt d) := of_length (k := 2) rfl (by decide) (by decide)

theorem inirb (f : RegField) (cnt : RegField) (d : RegField) : Statement (.inirb f cnt d) := of_length (k := 2) rfl (by decide) (by decide)

theorem inir (f : RegField) (cnt : RegField) (d : RegField) : Statement (.inir f cnt d) := of_length (k := 2) rfl (by decide) (by decide)

theorem outdb (f : RegField) (cnt : RegField) (d : RegField) : Statement (.outdb f cnt d) := of_length (k := 2) rfl (by decide) (by decide)

theorem outd (f : RegField) (cnt : RegField) (d : RegField) : Statement (.outd f cnt d) := of_length (k := 2) rfl (by decide) (by decide)

theorem otdrb (f : RegField) (cnt : RegField) (d : RegField) : Statement (.otdrb f cnt d) := of_length (k := 2) rfl (by decide) (by decide)

theorem otdr (f : RegField) (cnt : RegField) (d : RegField) : Statement (.otdr f cnt d) := of_length (k := 2) rfl (by decide) (by decide)

theorem outib (f : RegField) (cnt : RegField) (d : RegField) : Statement (.outib f cnt d) := of_length (k := 2) rfl (by decide) (by decide)

theorem outi (f : RegField) (cnt : RegField) (d : RegField) : Statement (.outi f cnt d) := of_length (k := 2) rfl (by decide) (by decide)

theorem otirb (f : RegField) (cnt : RegField) (d : RegField) : Statement (.otirb f cnt d) := of_length (k := 2) rfl (by decide) (by decide)

theorem otir (f : RegField) (cnt : RegField) (d : RegField) : Statement (.otir f cnt d) := of_length (k := 2) rfl (by decide) (by decide)

theorem sindb (f : RegField) (cnt : RegField) (d : RegField) : Statement (.sindb f cnt d) := of_length (k := 2) rfl (by decide) (by decide)

theorem sind (f : RegField) (cnt : RegField) (d : RegField) : Statement (.sind f cnt d) := of_length (k := 2) rfl (by decide) (by decide)

theorem sindrb (f : RegField) (cnt : RegField) (d : RegField) : Statement (.sindrb f cnt d) := of_length (k := 2) rfl (by decide) (by decide)

theorem sindr (f : RegField) (cnt : RegField) (d : RegField) : Statement (.sindr f cnt d) := of_length (k := 2) rfl (by decide) (by decide)

theorem sinib (f : RegField) (cnt : RegField) (d : RegField) : Statement (.sinib f cnt d) := of_length (k := 2) rfl (by decide) (by decide)

theorem sini (f : RegField) (cnt : RegField) (d : RegField) : Statement (.sini f cnt d) := of_length (k := 2) rfl (by decide) (by decide)

theorem sinirb (f : RegField) (cnt : RegField) (d : RegField) : Statement (.sinirb f cnt d) := of_length (k := 2) rfl (by decide) (by decide)

theorem sinir (f : RegField) (cnt : RegField) (d : RegField) : Statement (.sinir f cnt d) := of_length (k := 2) rfl (by decide) (by decide)

theorem soutdb (f : RegField) (cnt : RegField) (d : RegField) : Statement (.soutdb f cnt d) := of_length (k := 2) rfl (by decide) (by decide)

theorem soutd (f : RegField) (cnt : RegField) (d : RegField) : Statement (.soutd f cnt d) := of_length (k := 2) rfl (by decide) (by decide)

theorem sotdrb (f : RegField) (cnt : RegField) (d : RegField) : Statement (.sotdrb f cnt d) := of_length (k := 2) rfl (by decide) (by decide)

theorem sotdr (f : RegField) (cnt : RegField) (d : RegField) : Statement (.sotdr f cnt d) := of_length (k := 2) rfl (by decide) (by decide)

theorem soutib (f : RegField) (cnt : RegField) (d : RegField) : Statement (.soutib f cnt d) := of_length (k := 2) rfl (by decide) (by decide)

theorem souti (f : RegField) (cnt : RegField) (d : RegField) : Statement (.souti f cnt d) := of_length (k := 2) rfl (by decide) (by decide)

theorem sotirb (f : RegField) (cnt : RegField) (d : RegField) : Statement (.sotirb f cnt d) := of_length (k := 2) rfl (by decide) (by decide)

theorem sotir (f : RegField) (cnt : RegField) (d : RegField) : Statement (.sotir f cnt d) := of_length (k := 2) rfl (by decide) (by decide)

theorem comflg (mask : BitVec 4) : Statement (.comflg mask) := of_length (k := 1) rfl (by decide) (by decide)

theorem resflg (mask : BitVec 4) : Statement (.resflg mask) := of_length (k := 1) rfl (by decide) (by decide)

theorem setflg (mask : BitVec 4) : Statement (.setflg mask) := of_length (k := 1) rfl (by decide) (by decide)

theorem nop : Statement .nop := of_length (k := 1) rfl (by decide) (by decide)

theorem di (vn : BitVec 2) : Statement (.di vn) := of_length (k := 1) rfl (by decide) (by decide)

theorem ei (vn : BitVec 2) : Statement (.ei vn) := of_length (k := 1) rfl (by decide) (by decide)

theorem halt : Statement .halt := of_length (k := 1) rfl (by decide) (by decide)

theorem ldctlRead (d : RegField) (c : CtlReg) : Statement (.ldctlRead d c) := of_length (k := 1) rfl (by decide) (by decide)

theorem ldctlWrite (c : CtlReg) (f : RegField) : Statement (.ldctlWrite c f) := of_length (k := 1) rfl (by decide) (by decide)

theorem ldctlbRead (d : RegField) : Statement (.ldctlbRead d) := of_length (k := 1) rfl (by decide) (by decide)

theorem ldctlbWrite (f : RegField) : Statement (.ldctlbWrite f) := of_length (k := 1) rfl (by decide) (by decide)

theorem ldps (src : Mem) : Statement (.ldps src) := of_bounds rfl (encMem_length4 _ _ _)

theorem mbit : Statement .mbit := of_length (k := 1) rfl (by decide) (by decide)

theorem mreq (d : RegField) : Statement (.mreq d) := of_length (k := 1) rfl (by decide) (by decide)

theorem mres : Statement .mres := of_length (k := 1) rfl (by decide) (by decide)

theorem mset : Statement .mset := of_length (k := 1) rfl (by decide) (by decide)

theorem epaStm (dst : Mem) (u1 : BitVec 2) (u2 : BitVec 12) (num : BitVec 4) : Statement (.epaStm dst u1 u2 num) := of_bounds rfl (two_words_length _ _ _)

theorem epaLdm (src : Mem) (u1 : BitVec 2) (u2 : BitVec 12) (num : BitVec 4) : Statement (.epaLdm src u1 u2 num) := of_bounds rfl (two_words_length _ _ _)

theorem epaLdr (u1 : BitVec 3) (u2 : BitVec 2) (u3 : BitVec 4) (d : RegField) (u4 : BitVec 4) (num : BitVec 4) : Statement (.epaLdr u1 u2 u3 d u4 num) := of_length (k := 2) rfl (by decide) (by decide)

theorem epaStr (u1 : BitVec 3) (u2 : BitVec 2) (u3 : BitVec 4) (f : RegField) (u4 : BitVec 4) (num : BitVec 4) : Statement (.epaStr u1 u2 u3 f u4 num) := of_length (k := 2) rfl (by decide) (by decide)

theorem epaLdf (u1 : BitVec 4) (u2 : BitVec 2) (u3 : BitVec 4) (u4 : BitVec 4) : Statement (.epaLdf u1 u2 u3 u4) := of_length (k := 2) rfl (by decide) (by decide)

theorem epaStf (u1 : BitVec 4) (u2 : BitVec 2) (u3 : BitVec 4) (u4 : BitVec 4) : Statement (.epaStf u1 u2 u3 u4) := of_length (k := 2) rfl (by decide) (by decide)

theorem epaOp (u1 : BitVec 4) (u2 : BitVec 2) (w2 : Word) : Statement (.epaOp u1 u2 w2) := of_length (k := 2) rfl (by decide) (by decide)

theorem epaTail_words_length (x : EpaTail) : 1 ≤ x.words.length ∧ x.words.length ≤ 3 := by
  rcases x with ⟨w, _ | a⟩
  · exact ⟨Nat.le_refl 1, Nat.le_add_left 1 2⟩
  · have := addr_words_length a
    simp only [EpaTail.words, List.length_cons]
    omega

theorem epaOther (w1 : Word) (w2 : EpaTail) : Statement (.epaOther w1 w2) := by
  have := epaTail_words_length w2
  refine of_bounds (ws := w1 :: w2.words) rfl ?_
  simp only [List.length_cons]
  omega

end Sys2Proof.Laws.EncodeLength
end

