-- ==== Sys2Proof/Tests/Slice0.lean ====
section
/-! SUPPORT. Tests. Expected values are those of 95_test_vectors.md (parts 1 and 2) and of the encodings of
30_encoding and the instruction pages, not the model's own answers. Each runs one step, from the words. -/

namespace Sys2Proof.Tests
set_option Elab.async false
open Sys2Proof Sys2Proof.Machine

/-! ### Helpers -/

def loc (off : Word) : Address := { seg := 0#7, off := off }

/-- A Z8002 with this FCW, these registers and memory words, and these words at its PC, %1000. -/
def start (fcw : Word) (ws : List Word) (regs : List (RegField × Word)) (mem : List (Word × Word)) : State :=
  let s := { State.reset with fcw := Fcw.ofWord .z8002 fcw }
  let s := regs.foldl (fun s r => s.writeW r.1 r.2) s
  let s := mem.foldl (fun s m => s.pokeWord (loc m.1) m.2) s
  s.storeWords s.pcAddr ws

/-- What one step leaves, if it answers a next state. -/
def out {α : Type} (s : State) (f : State → α) : Option α :=
  match step s with
  | .next t => some (f t)
  | _ => none

/-- What one step refuses, or the fault it takes. -/
def refusal (s : State) : Option Refusal :=
  match step s with
  | .refused r => some r
  | _ => none
def faultOf (s : State) : Option Fault :=
  match step s with
  | .fault r => some r
  | _ => none

/-! ### One step -/

theorem test_clr : out (start 0x4000 [0x4D08, 0xABBA] []
    [(0xabba, 0xd)]) (fun t => t.peekWord (loc 0xabba)) =
    some 0 := by decide +kernel
theorem test_clrb_odd_byte : out (start 0x4000 [0x0C18] [(1, 0x2001)]
    [(0x2000, 0xabcd)]) (fun t => t.peekWord (loc 0x2000)) =
    some 0xab00 := by decide +kernel
theorem test_ex : out (start 0x4000 [0xAD50] [(0, 8), (5, 9)]
    []) (fun t => (t.readW 0, t.readW 5)) =
    some (9, 8) := by decide +kernel
theorem test_ex_memory : out (start 0x4000 [0x2D10] [(0, 0x1111), (1, 0x2000)]
    [(0x2000, 0x9999)]) (fun t => (t.readW 0, t.peekWord (loc 0x2000))) =
    some (0x9999, 0x1111) := by decide +kernel
theorem test_ldb_register : out (start 0x4000 [0xA0A1] [(1, 0x1122), (2, 0x3344)]
    []) (fun t => t.readW 1) =
    some 0x4422 := by decide +kernel
theorem test_ldb_short : out (start 0x4000 [0xC841] [] []) (fun t => t.readW 0) = some 0x41 := by decide +kernel
theorem test_ld_ir : out (start 0x4000 [0x2121] [(2, 0x2000)]
    [(0x2000, 0x1234)]) (fun t => (t.readW 1, t.pcOff)) =
    some (0x1234, 0x1002) := by decide +kernel
theorem test_ld_bx_wraps : out (start 0x4000 [0x7121, 0x0300] [(2, 0x2000), (3, 0xfffe)]
    [(0x1ffe, 0xbeef)]) (fun t => t.readW 1) =
    some 0xbeef := by decide +kernel
theorem test_ld_store_da : out (start 0x4000 [0x6F03, 0x4000] [(3, 0xff)]
    []) (fun t => (t.peekWord (loc 0x4000), t.pcOff)) =
    some (0xff, 0x1004) := by decide +kernel
theorem test_ldl_immediate : out (start 0x4000 [0x1402, 0x1234, 0x5678] []
    []) (fun t => (t.readL 2, t.pcOff)) =
    some (0x12345678, 0x1006) := by decide +kernel
theorem test_ldl_store : out (start 0x4000 [0x5D02, 0x2000] [(2, 0x1234), (3, 0x5678)]
    []) (fun t => (t.peekWord (loc 0x2000), t.peekWord (loc 0x2002))) =
    some (0x1234, 0x5678) := by decide +kernel
theorem test_ld_field_zero_is_immediate : out (start 0x4000 [0x2101, 0x2000] [(0, 0x3000)]
    [(0x3000, 7)]) (fun t => (t.readW 1, t.pcOff)) =
    some (0x2000, 0x1004) := by decide +kernel
theorem test_lda : out (start 0x4000 [0x7604, 0x2222] [] []) (fun t => t.readW 4) = some 0x2222 := by decide +kernel
theorem test_ldar : out (start 0x4000 [0x3402, 0xFFFC] [] []) (fun t => t.readW 2) = some 0x1000 := by decide +kernel
theorem test_ldk : out (start 0x4000 [0xBD0F] [(0, 0xffff)] []) (fun t => t.readW 0) = some 0xf := by decide +kernel
theorem test_ldm_store : out (start 0x4000 [0x1C69, 0x0502] [(5, 5), (6, 0x100), (7, 7)]
    []) (fun t => (t.peekWord (loc 0x100), t.peekWord (loc 0x102), t.peekWord (loc 0x104))) =
    some (5, 0x100, 7) := by decide +kernel
theorem test_ldm_load_wraps : out (start 0x4000 [0x1C61, 0x0E03] [(6, 0x2000)]
    [(0x2000, 1), (0x2002, 2), (0x2004, 3), (0x2006, 4)]) (fun t => (t.readW 14, t.readW 15, t.readW 0, t.readW 1)) =
    some (1, 2, 3, 4) := by decide +kernel
theorem test_ldr : out (start 0x4000 [0x3102, 0x0004] []
    [(0x1008, 0xbeef)]) (fun t => t.readW 2) =
    some 0xbeef := by decide +kernel
theorem test_pop : out (start 0x4000 [0x97C3] [(12, 0x1100), (3, 0x22)]
    [(0x1100, 0x55)]) (fun t => (t.readW 3, t.readW 12)) =
    some (0x55, 0x1102) := by decide +kernel
theorem test_popl : out (start 0x4000 [0x95F2] [(15, 0x7ffc)]
    [(0x7ffc, 1), (0x7ffe, 2)]) (fun t => (t.readW 2, t.readW 3, t.readW 15)) =
    some (1, 2, 0x8000) := by decide +kernel
theorem test_push : out (start 0x4000 [0x93C3] [(12, 0x1102), (3, 0x22)]
    []) (fun t => (t.peekWord (loc 0x1100), t.readW 12)) =
    some (0x22, 0x1100) := by decide +kernel
theorem test_push_immediate : out (start 0x4000 [0x0DF9, 0x1234] [(15, 0x8000)]
    []) (fun t => (t.peekWord (loc 0x7ffe), t.readW 15, t.pcOff)) =
    some (0x1234, 0x7ffe, 0x1004) := by decide +kernel
theorem test_add_memory : out (start 0x4000 [0x4102, 0x1254] [(2, 0xbd21)]
    [(0x1254, 0x644)]) (fun t => (t.readW 2, t.flags.toByte)) =
    some (0xc365, 0x20) := by decide +kernel
theorem test_add_overflow : out (start 0x4000 [0x8110] [(0, 0x7fff), (1, 1)]
    []) (fun t => (t.readW 0, t.flags.toByte)) =
    some (0x8000, 0x30) := by decide +kernel
theorem test_addb_half_carry : out (start 0x4008 [0x8098] [(0, 0xf), (1, 1)]
    []) (fun t => (t.readW 0, t.flags.toByte)) =
    some (0x10, 4) := by decide +kernel
theorem test_addl : out (start 0x4000 [0x9620] [(0, 0x7fff), (1, 0xffff), (3, 1)]
    []) (fun t => (t.readL 0, t.flags.toByte)) =
    some (0x80000000, 0x30) := by decide +kernel
theorem test_adc : out (start 0x4080 [0xB510] [(0, 0xffff)]
    []) (fun t => (t.readW 0, t.flags.toByte)) =
    some (0, 0xc0) := by decide +kernel
theorem test_sub_immediate : out (start 0x4000 [0x0300, 0x00AA] [(0, 0x344)]
    []) (fun t => (t.readW 0, t.flags.toByte)) =
    some (0x29a, 0) := by decide +kernel
theorem test_sub_borrow : out (start 0x4000 [0x8310] [(1, 1)]
    []) (fun t => (t.readW 0, t.flags.toByte)) =
    some (0xffff, 0xa0) := by decide +kernel
theorem test_subb : out (start 0x4000 [0x8298] [(0, 0x10), (1, 1)]
    []) (fun t => (t.readW 0, t.flags.toByte)) =
    some (0xf, 0xc) := by decide +kernel
theorem test_sbc : out (start 0x4080 [0xB710] []
    []) (fun t => (t.readW 0, t.flags.toByte)) =
    some (0xffff, 0xa0) := by decide +kernel
theorem test_cp : out (start 0x4000 [0x0B00, 0x1235] [(0, 0x1234)]
    []) (fun t => (t.readW 0, t.flags.toByte)) =
    some (0x1234, 0xa0) := by decide +kernel
theorem test_cpb_memory_immediate : out (start 0x4000 [0x0C51, 0x0303] [(5, 0x400)]
    [(0x400, 0x200)]) (fun t => (t.peekWord (loc 0x400), t.flags.toByte)) =
    some (0x200, 0xa0) := by decide +kernel
theorem test_incb : out (start 0x4000 [0xA825] [(2, 0x2100)]
    []) (fun t => t.readW 2) =
    some 0x2700 := by decide +kernel
theorem test_inc_by_16 : out (start 0x4080 [0xA90F] [(0, 0x7ff8)]
    []) (fun t => (t.readW 0, t.flags.toByte)) =
    some (0x8008, 0xb0) := by decide +kernel
theorem test_dec_overflow : out (start 0x4000 [0xAB00] [(0, 0x8000)]
    []) (fun t => (t.readW 0, t.flags.toByte)) =
    some (0x7fff, 0x10) := by decide +kernel
theorem test_neg : out (start 0x4000 [0x8D82] [(8, 0x51f)]
    []) (fun t => (t.readW 8, t.flags.toByte)) =
    some (0xfae1, 0xa0) := by decide +kernel
theorem test_neg_most_negative : out (start 0x4000 [0x8D02] [(0, 0x8000)]
    []) (fun t => (t.readW 0, t.flags.toByte)) =
    some (0x8000, 0xb0) := by decide +kernel
theorem test_dab : out (start 0x4000 [0xB080] [(0, 0x3c)]
    []) (fun t => (t.readW 0, t.flags.toByte)) =
    some (0x42, 0) := by decide +kernel
theorem test_dab_after_subtraction : out (start 0x408C [0xB080] [(0, 0xee)]
    []) (fun t => (t.readW 0, t.flags.toByte)) =
    some (0x88, 0xac) := by decide +kernel
theorem test_extsb : out (start 0x4000 [0xB100] [(0, 0x1280)]
    []) (fun t => t.readW 0) =
    some 0xff80 := by decide +kernel
theorem test_exts : out (start 0x4000 [0xB12A] [(2, 0x1234), (3, 0x5678)]
    []) (fun t => t.readL 2) =
    some 0x5678 := by decide +kernel
theorem test_mult : out (start 0x4000 [0x9920] [(0, 0x1234), (1, 0x4000), (2, 4)]
    []) (fun t => (t.readL 0, t.flags.toByte)) =
    some (0x10000, 0x80) := by decide +kernel
theorem test_multl : out (start 0x4000 [0x1800, 0x0000, 0x000A] [(0, 0x2222), (1, 0x2222), (3, 0x31)]
    []) (fun t => (t.readQ 0, t.flags.toByte)) =
    some (0x1ea, 0) := by decide +kernel
theorem test_div : out (start 0x4000 [0x9B30] [(1, 0x22), (3, 6)]
    []) (fun t => (t.readW 1, t.readW 0, t.flags.toByte)) =
    some (5, 4, 0) := by decide +kernel
theorem test_div_truncates : out (start 0x4000 [0x9B20] [(0, 0xffff), (1, 0xfff9), (2, 2)]
    []) (fun t => (t.readW 1, t.readW 0, t.flags.toByte)) =
    some (0xfffd, 0xffff, 0x20) := by decide +kernel
theorem test_andb_parity : out (start 0x4090 [0x8698] [(0, 0xff), (1, 0xf)]
    []) (fun t => (t.readW 0, t.flags.toByte)) =
    some (0xf, 0x90) := by decide +kernel
theorem test_or_keeps_pv : out (start 0x4010 [0x8510] [(0, 0xf0), (1, 0xf00)]
    []) (fun t => (t.readW 0, t.flags.toByte)) =
    some (0xff0, 0x10) := by decide +kernel
theorem test_xor : out (start 0x4080 [0x8900] [(0, 0x1234)]
    []) (fun t => (t.readW 0, t.flags.toByte)) =
    some (0, 0xc0) := by decide +kernel
theorem test_xorb : out (start 0x4000 [0x080B, 0x7B7B] [(3, 0xc3)]
    []) (fun t => (t.readW 3, t.flags.toByte)) =
    some (0xb8, 0x30) := by decide +kernel
theorem test_com : out (start 0x4000 [0x8D10] [(1, 0x2552)]
    []) (fun t => (t.readW 1, t.flags.toByte)) =
    some (0xdaad, 0x20) := by decide +kernel
theorem test_testb : out (start 0x4000 [0x8C84] [(0, 3)]
    []) (fun t => t.flags.toByte) =
    some 0x10 := by decide +kernel
theorem test_test : out (start 0x4010 [0x8D54] [(5, 0xffff)]
    []) (fun t => t.flags.toByte) =
    some 0x30 := by decide +kernel
theorem test_call : out (start 0x4000 [0x5F00, 0x2520] [(15, 0x3002)]
    []) (fun t => (t.readW 15, t.peekWord (loc 0x3000), t.pcOff)) =
    some (0x3000, 0x1004, 0x2520) := by decide +kernel
theorem test_calr_forward : out (start 0x4000 [0xD800] [(15, 0x8000)]
    []) (fun t => (t.peekWord (loc 0x7ffe), t.pcOff)) =
    some (0x1002, 0x2002) := by decide +kernel
theorem test_calr_backward : out (start 0x4000 [0xD7FF] [(15, 0x8000)]
    []) (fun t => (t.peekWord (loc 0x7ffe), t.pcOff)) =
    some (0x1002, 4) := by decide +kernel
theorem test_djnz_zero : out (start 0x4000 [0xF081] []
    []) (fun t => (t.readW 0, t.pcOff)) =
    some (0xffff, 0x1000) := by decide +kernel
theorem test_dbjnz : out (start 0x4000 [0xF07F] [(0, 0x200)]
    []) (fun t => (t.readW 0, t.pcOff)) =
    some (0x100, 0xf04) := by decide +kernel
theorem test_jp : out (start 0x4080 [0x5E07, 0x1520] [] []) (fun t => t.pcOff) = some 0x1520 := by decide +kernel
theorem test_jr : out (start 0x4020 [0xE506] [] []) (fun t => t.pcOff) = some 0x100e := by decide +kernel
theorem test_jr_never : out (start 0x40FC [0xE010] [] []) (fun t => t.pcOff) = some 0x1002 := by decide +kernel
theorem test_ret : out (start 0x4000 [0x9E0E] [(15, 0x3000)]
    [(0x3000, 0x1004)]) (fun t => (t.readW 15, t.pcOff)) =
    some (0x3002, 0x1004) := by decide +kernel
theorem test_iret : out (start 0x4000 [0x7B00] [(15, 0x3ffa)]
    [(0x3ffa, 0x7f2a), (0x3ffc, 0), (0x3ffe, 0x1006)]) (fun t => (t.regs.get 15, t.fcw.toWord .z8002, t.pcOff)) =
    some (0x4000, 0, 0x1006) := by decide +kernel
theorem test_bit : out (start 0x4040 [0xA70F] [(0, 0x8000)]
    []) (fun t => t.flags.toByte) =
    some 0 := by decide +kernel
theorem test_bitb : out (start 0x4000 [0xA620] [(2, 0xb200)]
    []) (fun t => t.flags.toByte) =
    some 0x40 := by decide +kernel
theorem test_res : out (start 0x4000 [0x2317] [(1, 0x2000)]
    [(0x2000, 0xffff)]) (fun t => t.peekWord (loc 0x2000)) =
    some 0xff7f := by decide +kernel
theorem test_set : out (start 0x4000 [0x6500, 0x2000] []
    []) (fun t => t.peekWord (loc 0x2000)) =
    some 1 := by decide +kernel
theorem test_setb_dynamic : out (start 0x4000 [0x2402, 0x0B00] [(2, 0xff0f)]
    []) (fun t => t.readW 3) =
    some 0x80 := by decide +kernel
theorem test_tcc : out (start 0x4030 [0xAF19] [(1, 0xfffe)]
    []) (fun t => t.readW 1) =
    some 0xffff := by decide +kernel
theorem test_tset : out (start 0x4000 [0x0D16] [(1, 0x2000)]
    [(0x2000, 0x8001)]) (fun t => (t.peekWord (loc 0x2000), t.flags.toByte)) =
    some (0xffff, 0x20) := by decide +kernel
theorem test_rlb : out (start 0x4000 [0xB250] [(5, 0x8800)]
    []) (fun t => (t.readW 5, t.flags.toByte)) =
    some (0x1100, 0x90) := by decide +kernel
theorem test_rlc : out (start 0x4000 [0xB30A] [(0, 0x800f)] []) (fun t => t.readW 0) = some 0x3d := by decide +kernel
theorem test_rrb : out (start 0x4000 [0xB2E4] [(6, 0x31)]
    []) (fun t => (t.readW 6, t.flags.toByte)) =
    some (0x98, 0xb0) := by decide +kernel
theorem test_rrc : out (start 0x4000 [0xB30E] [(0, 0xdd)] []) (fun t => t.readW 0) = some 0x8037 := by decide +kernel
theorem test_rldb : out (start 0x4000 [0xBE91] [(1, 0x45)] []) (fun t => t.readW 1) = some 0x450 := by decide +kernel
theorem test_rrdb : out (start 0x4000 [0xBC91] [(1, 0x12)] []) (fun t => t.readW 1) = some 0x201 := by decide +kernel
theorem test_sda : out (start 0x4000 [0xB35B, 0x0100] [(5, 0xc705), (1, 0xfffe)]
    []) (fun t => t.readW 5) =
    some 0xf1c1 := by decide +kernel
theorem test_sdlb : out (start 0x4000 [0xB2D3, 0x0100] [(5, 0xb3), (1, 4)]
    []) (fun t => t.readW 5) =
    some 0x30 := by decide +kernel
theorem test_sla_sign_changes : out (start 0x4000 [0xB309, 0x0002] [(0, 0x4000)]
    []) (fun t => (t.readW 0, t.flags.toByte)) =
    some (0, 0xd0) := by decide +kernel
theorem test_slal : out (start 0x4000 [0xB32D, 0x0008] [(2, 0x1234), (3, 0xabcd)]
    []) (fun t => t.readL 2) =
    some 0x34abcd00 := by decide +kernel
theorem test_srab : out (start 0x4000 [0xB269, 0x00FE] [(6, 0x3b00)]
    []) (fun t => (t.readW 6, t.flags.c)) =
    some (0xe00, true) := by decide +kernel
theorem test_srl : out (start 0x4000 [0xB301, 0xFFFA] [(0, 0x1111)]
    []) (fun t => (t.readW 0, t.flags.c)) =
    some (0x44, false) := by decide +kernel
theorem test_cpdb : out (start 0x4000 [0xBA18, 0x0306] [(0, 0xff00), (1, 0x4001), (3, 5)]
    []) (fun t => (t.readW 1, t.readW 3, t.flags.z, t.flags.pv)) =
    some (0x4000, 4, false, false) := by decide +kernel
theorem test_cpir_goes_on : out (start 0x4000 [0xBB24, 0x0306] [(0, 7), (2, 0x2000), (3, 2)]
    []) (fun t => (t.readW 2, t.readW 3, t.pcOff, t.flags.z)) =
    some (0x2002, 1, 0x1000, false) := by decide +kernel
theorem test_cpsib : out (start 0x4000 [0xBA22, 0x031E] [(1, 0x2000), (2, 0x3000), (3, 9)]
    [(0x2000, 0x4100), (0x3000, 0x4200)]) (fun t => (t.readW 1, t.readW 2, t.readW 3, t.flags.z, t.flags.c)) =
    some (0x2001, 0x3001, 8, true, true) := by decide +kernel
theorem test_ldd : out (start 0x4000 [0xBB29, 0x0318] [(1, 0x202a), (2, 0x404a), (3, 5)]
    [(0x404a, 0xffff)]) (fun t => (t.peekWord (loc 0x202a), t.readW 1, t.readW 2, t.readW 3, t.flags.pv)) =
    some (0xffff, 0x2028, 0x4048, 4, false) := by decide +kernel
theorem test_ldirb_count_zero : out (start 0x4000 [0xBA21, 0x0310] [(1, 0x2100), (2, 0x2000)]
    [(0x2000, 0x7700)]) (fun t => (t.peekWord (loc 0x2100), t.readW 3, t.pcOff, t.flags.pv)) =
    some (0x7700, 0xffff, 0x1000, false) := by decide +kernel
theorem test_trdb : out (start 0x4000 [0xB868, 0x0C90] [(6, 0x4001), (9, 0x2000), (12, 2)]
    [(0x4000, 3), (0x2002, 0xaa)]) (fun t => (t.peekWord (loc 0x4000), t.readW 6, t.readW 12)) =
    some (0xaa, 0x4000, 1) := by decide +kernel
theorem test_trtib : out (start 0x4000 [0xB832, 0x0540] [(3, 0x3000), (4, 0x4000), (5, 1)]
    [(0x3000, 0x4100)]) (fun t => (t.readW 3, t.readW 5, t.flags.z, t.flags.pv, t.readB 1)) =
    some (0x3001, 0, true, true, 0) := by decide +kernel
theorem test_comflg : out (start 0x4010 [0x8DF5] []
    []) (fun t => (t.flags.c, t.flags.z, t.flags.s, t.flags.pv)) =
    some (true, true, true, false) := by decide +kernel
theorem test_resflg : out (start 0x40B0 [0x8D93] [] []) (fun t => t.flags.toByte) = some 0x20 := by decide +kernel
theorem test_setflg : out (start 0x4010 [0x8D81] [] []) (fun t => t.flags.toByte) = some 0x90 := by decide +kernel
theorem test_di : out (start 0x5800 [0x7C01] [] []) (fun t => t.fcw.toWord .z8002) = some 0x4800 := by decide +kernel
theorem test_ei : out (start 0x4800 [0x7C05] [] []) (fun t => t.fcw.toWord .z8002) = some 0x5800 := by decide +kernel
theorem test_halt : out (start 0x4000 [0x7A00] []
    []) (fun t => (t.halted, t.pcOff)) =
    some (true, 0x1002) := by decide +kernel
theorem test_ldctl_read_nsp : out (start 0x4000 [0x7D27] [] []) (fun t => t.readW 2) = some 0 := by decide +kernel
theorem test_ldctl_write_fcw : out (start 0x4000 [0x7D1A] [(1, 0xffff)]
    []) (fun t => t.fcw.toWord .z8002) =
    some 0x78fc := by decide +kernel
theorem test_ldctl_write_psap : out (start 0x4000 [0x7D1D] [(1, 0x2ff)]
    []) (fun t => t.psapOff) =
    some 2 := by decide +kernel
theorem test_ldctlb_read : out (start 0x40A4 [0x8C81] [] []) (fun t => t.readW 0) = some 0xa4 := by decide +kernel
theorem test_ldctlb_write : out (start 0x4000 [0x8C19] [(1, 0xff00)]
    []) (fun t => t.fcw.toWord .z8002) =
    some 0x40fc := by decide +kernel
theorem test_ldps : out (start 0x4000 [0x3930] [(3, 0x5000)]
    [(0x5000, 0x1800), (0x5002, 0xa000)]) (fun t => (t.pcOff, t.fcw.toWord .z8002)) =
    some (0xa000, 0x1800) := by decide +kernel
theorem test_mres : out (start 0x4000 [0x7B09] [] []) (fun t => t.moHigh) = some true := by decide +kernel
theorem test_mset : out (start 0x4000 [0x7B08] [] []) (fun t => t.moHigh) = some false := by decide +kernel
theorem test_nop : out (start 0x4000 [0x8D07] [] []) (fun t => t.pcOff) = some 0x1002 := by decide +kernel
theorem test_epa_op : out (start 0x6000 [0x8E04, 0x1234] [] []) (fun t => t.pcOff) = some 0x1004 := by decide +kernel

/-! ### Stops -/

theorem test_reserved_upper_byte : refusal (start 0x4000 [0x3600] [] []) = some (.reserved .reservedUpperByte) := by
  decide +kernel
theorem test_odd_pair : refusal (start 0x4000 [0x9921] [] []) = some (.reserved .illFormedOperands) := by decide +kernel
theorem test_overlap : refusal (start 0x4000 [0xBB11, 0x0310] [] []) = some .registerOverlap := by decide +kernel
theorem test_odd_word : faultOf (start 0x4000 [0x2121] [(2, 0x2001)] []) = some .oddWordAccess := by decide +kernel

/-! ### Traps, interrupts, input and output -/

/-- Normal mode, with the areas of vectors P15, U16 and X1 of 95_test_vectors: the traps' entries at PSAP = %0200. -/
def user (w : Word) : State :=
  let s := start 0x1800 [w] [(15, 0x6000)]
    [(0x204, 0x4000), (0x206, 0x440), (0x208, 0x4000), (0x20A, 0x480), (0x20C, 0x4000), (0x20E, 0x400)]
  { s with psapOff := 2#8, regs := s.regs.set 15 0x4000#16 }
/-- The three words on the system stack, the system and the normal R15, the FCW and the PC. -/
def entered (t : State) : List Word :=
  [t.peekWord (loc 0x3FFA), t.peekWord (loc 0x3FFC), t.peekWord (loc 0x3FFE), t.regs.get 15, t.regs.get 17,
   t.fcw.toWord .z8002, t.pcOff]

theorem test_sc : out (user 0x7F2A) entered =
    some [0x7F2A, 0x1800, 0x1002, 0x3FFA, 0x6000, 0x4000, 0x400] := by decide +kernel
theorem test_privileged : out (user 0x7C01) entered =
    some [0x7C01, 0x1800, 0x1002, 0x3FFA, 0x6000, 0x4000, 0x480] := by decide +kernel
theorem test_extended : out (user 0x8E04) entered =
    some [0x8E04, 0x1800, 0x1002, 0x3FFA, 0x6000, 0x4000, 0x440] := by decide +kernel

/-- Vector T1: a vectored interrupt with identifier 4, taken before the instruction at the PC. -/
def interrupted : State :=
  { start 0x5800 [0x8D07] [(15, 0x4000)] [(0x21C, 0x5000), (0x226, 0x778)] with
    psapOff := 2#8, arrivals := [.vi true], idIn := [4#16] }
theorem test_vi : out interrupted entered =
    some [4, 0x5800, 0x1000, 0x3FFA, 0, 0x5000, 0x778] := by decide +kernel

/-- A state with answers of devices, of the EPU and of the MI pin. -/
def withAnswers (s : State) (io epu : List Word) (mi : List Bool) : State :=
  { s with ioIn := io, epuIn := epu, miIn := mi, cfg := { s.cfg with epuPresent := true } }
theorem test_in : out (withAnswers (start 0x4000 [0x3B14, 0x1120] [] []) [0xBEEF] [] [])
    (fun t => (t.readW 1, t.ioLog)) = some (0xBEEF, [⟨.standard, false, true, 0x1120, 0xBEEF⟩]) := by decide +kernel
theorem test_sinb : out (withAnswers (start 0x4000 [0x3A85, 0xFC00] [] []) [0x5A] [] [])
    (fun t => (t.readW 0, t.ioLog)) = some (0x5A, [⟨.special, false, false, 0xFC00, 0x5A⟩]) := by decide +kernel
theorem test_outb : out (start 0x4000 [0x3E68] [(6, 0x123), (0, 0x7E)] []) (fun t => t.ioLog) =
    some [⟨.standard, true, false, 0x123, 0x7E⟩] := by decide +kernel
theorem test_sout : out (start 0x4000 [0x3B37, 0xFC02] [(3, 0x1234)] []) (fun t => t.ioLog) =
    some [⟨.special, true, true, 0xFC02, 0x1234⟩] := by decide +kernel
theorem test_inib : out (withAnswers (start 0x4000 [0x3A60, 0x0048] [(4, 0x4000), (6, 0x229), (0, 0x16)] []) [0xB9] [] [])
    (fun t => (t.peekWord (loc 0x4000), t.readW 4, t.readW 0, t.readW 6)) = some (0xB900, 0x4001, 0x15, 0x229) := by
  decide +kernel
theorem test_otdr : out (start 0x4000 [0x3BCA, 0x0DB0] [(11, 0xFFF), (12, 0xB006), (13, 6)] [(0xB006, 9)])
    (fun t => (t.ioLog, t.readW 12, t.readW 13, t.pcOff)) =
    some ([⟨.standard, true, true, 0xFFF, 9⟩], 0xB004, 5, 0x1000) := by decide +kernel
theorem test_mreq_granted : out (withAnswers (start 0x4000 [0x7B0D] [(0, 50)] []) [] [] [true, false])
    (fun t => (t.readW 0, t.flags.z, t.flags.s, t.moHigh)) = some (0, true, true, false) := by decide +kernel
theorem test_mbit : out (withAnswers (start 0x4000 [0x7B0A] [] []) [] [] [true]) (fun t => t.flags.s) = some true := by
  decide +kernel
theorem test_epa_ldr : out (withAnswers (start 0x6000 [0x8F00, 0x0E02] [] []) [] [1, 2, 3] [])
    (fun t => (t.readW 14, t.readW 15, t.readW 0, t.pcOff)) = some (1, 2, 3, 0x1004) := by decide +kernel

/-! ### Segmented mode (vectors L17, P14, K11) -/

def segStart (ws : List Word) (regs : List (RegField × Word)) (mem : List (Address × Word)) : State :=
  let s := { State.reset with
    cfg := { Config.default with variant := .z8001 }, fcw := Fcw.ofWord .z8001 0xC000#16, pcSeg := 1#7 }
  let s := regs.foldl (fun s r => s.writeW r.1 r.2) s
  let s := mem.foldl (fun s m => s.pokeWord m.1 m.2) s
  s.storeWords s.pcAddr ws
theorem test_ldar_segmented : out (segStart [0x3404, 0x0010] [] []) (fun t => t.readL 4) = some 0x01001014 := by
  decide +kernel
theorem test_ld_long_offset : out (segStart [0x6104, 0x8300, 0x2004] [] [(⟨3, 0x2004⟩, 0x3335)])
    (fun t => (t.readW 4, t.pcOff)) = some (0x3335, 0x1006) := by decide +kernel
theorem test_call_segmented : out (segStart [0x5F00, 0x8500, 0x0040] [(14, 0x0200), (15, 0x1000)] [])
    (fun t => (t.peekLong ⟨2, 0xFFC⟩, t.readW 14, t.readW 15, t.pcSeg, t.pcOff)) =
    some (0x01001006, 0x0200, 0xFFC, 5, 0x40) := by decide +kernel
theorem test_ldir_segmented : out (segStart [0xBB41, 0x0620] [(2, 0x0300), (3, 0xFFFE), (4, 0x0100), (6, 1)]
    [(⟨1, 0⟩, 0x5A5A)]) (fun t => (t.peekWord ⟨3, 0xFFFE⟩, t.readL 2, t.readL 4, t.readW 6, t.flags.pv)) =
    some (0x5A5A, 0x03000000, 0x01000002, 0, true) := by decide +kernel

/-! ### The host's questions -/

theorem test_table_word : decodeTableWord 16 0x8131 = some (.add 1#4 (.r 3#4)) := by decide +kernel
theorem test_fetch_word : out (State.reset.withFetchWord 32 0x0009BDF0) (fun t => t.pcOff) = some 0x1002 := by
  decide +kernel

/-! ### What `wellFormed` refuses -/

theorem refuse_address_register_zero : wellFormed false (.clr (.mem (.ir 0))) = false := by decide
theorem refuse_odd_address_pair : wellFormed true (.clr (.mem (.ir 3))) = false := by decide
theorem refuse_index_zero : wellFormed false (.clr (.mem (.x (.ns 2) 0))) = false := by decide
theorem refuse_short_nonsegmented : wellFormed false (.clr (.mem (.da (.short 1 2)))) = false := by decide
theorem refuse_ns_segmented : wellFormed true (.clr (.mem (.da (.ns 2)))) = false := by decide
theorem refuse_base_zero : wellFormed false (.ldLoad 1 (.mem (.ba 0 2))) = false := by decide
theorem refuse_base_index_zero : wellFormed false (.ldLoad 1 (.mem (.bx 1 0))) = false := by decide
theorem refuse_odd_pair : wellFormed false (.ldlLoad 1 (.r 2)) = false := by decide
theorem refuse_odd_pair_source : wellFormed false (.addl 2 (.r 1)) = false := by decide
theorem refuse_odd_pair_tested : wellFormed false (.testl (.r 1)) = false := by decide
theorem refuse_quad : wellFormed false (.extsl 2) = false := by decide
theorem refuse_address_destination : wellFormed true (.lda 1 (.da (.short 1 2))) = false := by decide
theorem refuse_address_source : wellFormed false (.lda 1 (.x (.ns 2) 0)) = false := by decide
theorem refuse_stack_pointer_zero : wellFormed false (.push 0 (.r 1)) = false := by decide
theorem refuse_byte_bit : wellFormed false (.bitb (.r 1) 8) = false := by decide
theorem refuse_dynamic_byte_bit : wellFormed false (.setbDyn 1 8) = false := by decide
theorem refuse_left_count : wellFormed false (.sla 1 0x8000) = false := by decide
theorem refuse_right_count : wellFormed false (.srl 1 0) = false := by decide
theorem refuse_block_pointer : wellFormed false (.ldi 0 1 2) = false := by decide
theorem refuse_input_port : wellFormed false (.ini 0 1 2) = false := by decide
theorem refuse_output_port : wellFormed false (.outi 2 1 0) = false := by decide
theorem refuse_single_output_port : wellFormed false (.out (.ir 0) 1) = false := by decide
theorem refuse_epa_register_zero : wellFormed false (.epaStm (.ir 0) 0 0 0) = false := by decide
theorem refuse_epa_template : wellFormed false (.epaOther 0x8F00 ⟨0, none⟩) = false := by decide
theorem refuse_epa_no_address : wellFormed false (.epaOther 0x4E12 ⟨0, none⟩) = false := by decide
theorem refuse_epa_address : wellFormed false (.epaOther 0x0E12 ⟨0, some (.ns 2)⟩) = false := by decide

/-! ### The length of an extended opcode of no template (30_encoding R121, R135), and IN from the port in R0 (R463) -/

theorem test_decode_epa_other : decodeWords true [0x4E12#16, 1#16, 0x8300#16, 0x2004#16, 7#16] =
    .ok (.epaOther 0x4E12#16 ⟨1#16, some (.long 3#7 0x2004#16)⟩, [7#16]) := by rfl
theorem test_epa_other_next_instruction :
    (let s := start 0x4000 [0x4E12, 0x0001, 0x5000] [(15, 0x4000)] []
     out { s with cfg := { s.cfg with trapPcPolicy := .nextInstruction } }
       (fun t => (t.peekWord (loc 0x3FFE), t.peekWord (loc 0x3FFA)))) = some (0x1006, 0x4E12) := by decide +kernel
theorem test_input_port_zero : out (withAnswers (start 0x4000 [0x3D01] [(0, 0x0123)] []) [0x55AA] [] [])
    (fun t => (t.readW 1, t.ioLog.map (·.port))) = some (0x55AA, [0x0123]) := by decide +kernel
/-- The same words where the parameter reserves them (R150). -/
def portZeroReserved : State :=
  let s := start 0x4000 [0x3D01] [] []
  { s with cfg := { s.cfg with inPortZero := .reserved } }
theorem test_input_port_zero_reserved : refusal portZeroReserved = some (.reserved .illFormedOperands) := by decide +kernel

/-- PUSHL @R5,RR4: the pair is read before the decrement (40_load_exchange R212). -/
theorem test_pushl_odd_half : out (start 0x4000 [0x9154] [(4, 0x1111), (5, 0x2002)] [])
    (fun t => (t.peekLong (loc 0x1FFE), t.readL 4)) = some (0x11112002, 0x11111FFE) := by decide +kernel

/-! ### A state and operands that meet the hypotheses of each statement -/

/-- A Z8002 or Z8001 with this FCW, all registers 0. -/
def mode (v : Variant) (f : Word) : State :=
  { State.reset with cfg := { Config.default with variant := v }, fcw := Fcw.ofWord v f }
/-- Z8002 in system and in normal mode; Z8001 segmented and nonsegmented, in system mode. -/
def z2 : State := mode .z8002 0x4000
def n2 : State := mode .z8002 0x0000
def z1 : State := mode .z8001 0xC000
def z1n : State := mode .z8001 0x4000

theorem next_of_out {s : State} (h : out s (fun _ => ()) = some ()) : ∃ t, step s = .next t := by
  unfold out at h
  split at h
  · exact ⟨_, by assumption⟩
  · cases h

theorem ok_of_check {e : Exec State} {p : State → Bool} (h : (match e with | .ok t => p t | .error _ => false) = true) :
    ∃ t, e = .ok t ∧ p t = true := by
  split at h
  · exact ⟨_, rfl, h⟩
  · cases h

theorem witness_DecodeEncode : wellFormed false (.add 15 (.mem (.ir 15))) = true ∧
    wellFormed true (.add 0 (.mem (.ir 14))) = true := by decide
theorem witness_DecodeWellFormed :
    decodeWords false [0x8131#16, 7#16] = .ok (.add 1#4 (.r 3#4), [7#16]) ∧
    decodeWords true [0x7642#16, 0x0308#16] = .ok (.lda 2#4 (.x (.short 3#7 8#8) 4#4), []) := ⟨rfl, rfl⟩
theorem witness_StepRunsInstruction : let s := start 0x4000 [0x8D07] [] []
    s.latch.boundaryEvent = .run ∧ s.latch.pcOff.getLsbD 0 = false ∧
    decodeWords s.latch.segmented s.latch.wordsAtPc = .ok (.nop, [0#16, 0#16, 0#16]) :=
  ⟨by decide +kernel, by decide +kernel, by rfl⟩
theorem witness_StepRunsInstruction_reserved : let s := portZeroReserved
    s.latch.boundaryEvent = .run ∧ s.latch.pcOff.getLsbD 0 = false ∧ s.cfg.inPortZero = .reserved ∧
    decodeWords s.latch.segmented s.latch.wordsAtPc = .ok (.inp 1 (.ir 0), [0#16, 0#16, 0#16]) :=
  ⟨by decide +kernel, by decide +kernel, rfl, by rfl⟩
theorem witness_StepRunsInstruction_refused : let s := start 0x4000 [0x3600] [] []
    s.latch.boundaryEvent = .run ∧ s.latch.pcOff.getLsbD 0 = false ∧
    decodeWords s.latch.segmented s.latch.wordsAtPc = .error .reservedUpperByte :=
  ⟨by decide +kernel, by decide +kernel, by rfl⟩
theorem witness_BoundaryPriority :
    ({ z2 with resetRequest := true } : State).latch.resetRequest = true ∧
    (let u := ({ z2 with nmiPending := true } : State).latch; u.resetRequest = false ∧ u.nmiPending = true) ∧
    (let u := ({ z1 with segtrapRequest := true } : State).latch
     u.resetRequest = false ∧ u.nmiPending = false ∧ u.segtrapRequest = true ∧ u.cfg.variant = .z8001) ∧
    (let u := ({ mode .z8002 0x5000 with viRequest := true } : State).latch
     u.resetRequest = false ∧ u.nmiPending = false ∧ u.segtrapRequest = false ∧ u.viRequest = true ∧ u.fcw.vie = true) ∧
    (let u := ({ mode .z8002 0x4800 with viRequest := true, nviRequest := true } : State).latch
     u.fcw.vie = false ∧ u.nviRequest = true ∧ u.fcw.nvie = true) ∧
    (let u := ({ z2 with nviRequest := true, halted := true } : State).latch
     u.resetRequest = false ∧ u.nmiPending = false ∧ u.segtrapRequest = false ∧ u.viRequest = false ∧
     u.fcw.nvie = false ∧ u.halted = true) := by decide +kernel
theorem witness_ResetRequest : ({ z1 with arrivals := [.reset] } : State).latch.resetRequest = true ∧
    z1.cfg.variant = .z8001 := by decide +kernel
theorem witness_StepInvariant : (start 0x4000 [0x8D07] [] []).Inv ∧ ∃ t, step (start 0x4000 [0x8D07] [] []) = .next t :=
  ⟨by unfold State.Inv; decide +kernel, next_of_out (by decide +kernel)⟩
theorem witness_PrivilegedTrap : n2.fcw.sn = false ∧ isPrivileged .halt = true ∧ isPrivileged (.sotirb 1 2 3) = true ∧
    Instr.setflg 15 ∈ [Instr.ldctlbRead 0, .ldctlbWrite 0, .comflg 15, .resflg 15, .setflg 15] ∧
    Instr.sc 255 = .sc 255 := by decide +kernel
theorem witness_ExtendedTrap : isExtended (.epaOther 0x8E0C ⟨0, none⟩) = true ∧ n2.fcw.epa = false ∧
    n2.systemStack.even = true ∧ n2.cfg.trapPcPolicy = .afterFirstWord := by decide +kernel
theorem witness_ProgramStatusChoice : n2.cfg.variant = .z8002 ∧ z1.cfg.variant = .z8001 := by decide +kernel
theorem witness_TrapEntryZ8002 : n2.cfg.variant = .z8002 ∧ n2.systemStack.even = true := by decide +kernel
theorem witness_TrapEntryZ8001 : z1n.cfg.variant = .z8001 ∧ z1n.systemStack.even = true := by decide +kernel
theorem witness_TrapThenReturn :
    (let s := start 0x0000 [] [] [(0x0C, 0x4000)]
     s.Inv ∧ ∃ t, s.trapEntry .systemCall 0x7F00#16 s.pcSeg s.pcOff = .ok t ∧ t.fcw.sn = true) ∧
    (let s := segStart [] [] [(⟨0, 0x1A⟩, 0xC000)]
     s.Inv ∧ ∃ t, s.trapEntry .systemCall 0x7F00#16 s.pcSeg s.pcOff = .ok t ∧ (t.fcw.sn && t.fcw.seg) = true) :=
  ⟨⟨by unfold State.Inv; decide +kernel, ok_of_check (p := fun t => t.fcw.sn) (by decide +kernel)⟩,
   ⟨by unfold State.Inv; decide +kernel, ok_of_check (p := fun t => t.fcw.sn && t.fcw.seg) (by decide +kernel)⟩⟩
theorem witness_SystemCallAndReturn : n2.systemStack.even = true ∧
    (z2.fcw.sn = true ∧ z2.cfg.variant = .z8002 ∧ z2.systemStack.even = true) ∧
    (z1.fcw.sn = true ∧ z1.cfg.variant = .z8001 ∧ z1.fcw.seg = true ∧ z1.systemStack.even = true) ∧
    (z1n.fcw.sn = true ∧ z1n.cfg.variant = .z8001 ∧ z1n.fcw.seg = false) := by decide +kernel
theorem witness_NormalModeConfined : n2.fcw.sn = false ∧ exec .nop n2 = .next n2 ∧
    systemSlot n2.cfg.variant 15 = true := ⟨by decide +kernel, rfl, by decide +kernel⟩
theorem witness_RegisterFile : (7#4).getLsbD 3 = false ∧ (0 : Fin 18) ≠ z2.slotB 9 ∧ (17 : Fin 18) ≠ z2.slot 15 ∧
    (2 : Fin 18) ∉ z2.slotsL 15 ∧ (4 : Fin 18) ∉ z2.slotsQ 0 ∧
    regSlot .z8002 true 14#4 = regSlot .z8002 false 14#4 ∧ systemSlot .z8001 (regSlot .z8001 true 14#4) = true := by
  decide +kernel
theorem witness_MemoryReadWrite : (1 : Nat) ≠ (loc 0xFFFF).key ∧ 1 ∉ (loc 0xFFFF).bytes 2 ∧ 3 ∉ (loc 0xFFFF).bytes 4 ∧
    z2.mem.wf = true := by decide +kernel
theorem witness_EffectiveAddress : z1n.segmented = false ∧ z1.segmented = true ∧ z1n.cfg.variant = .z8001 ∧
    z2.cfg.variant = .z8002 := by decide +kernel
theorem witness_AddSubtract : (8 = 8 ∨ 8 = 16 ∨ 8 = 32) ∧ (16 = 8 ∨ 16 = 16 ∨ 16 = 32) ∧ (32 = 8 ∨ 32 = 16 ∨ 32 = 32) := by
  decide
theorem witness_LoadWordLong : (z2.eaB (.mem (.da (.ns 0xFFFE)))).even = true ∧
    ({ seg := z2.curSeg, off := z2.pcOff + 0x8000#16 } : Address).even = true := by decide +kernel
theorem witness_StoreMemory : (z2.eaB (.ba 1 0xFFFE)).even = true ∧ (z2.ea (.x (.ns 0xFFFE) 1)).even = true ∧
    ({ seg := z1.curSeg, off := z1.pcOff + 0x7FFE#16 } : Address).even = true := by decide +kernel
theorem witness_ClearExchange : z2.rmW (.r 15) = .ok 0#16 ∧ z2.rmW (.mem (.da (.ns 0xFFFE))) = .ok 0#16 ∧
    (z2.ea (.ir 1)).even = true ∧ (2 : RegField) ≠ 1 ^^^ 8 := ⟨rfl, rfl, by decide +kernel, by decide⟩
theorem witness_LoadAddress : z1n.segmented = false ∧ z1.segmented = true := by decide +kernel
theorem witness_LoadMultiple : (z1.ea (.da (.long 127 0xFFFE))).even = true := by decide +kernel
theorem witness_PushStoresSource : (z2.pointer 15).even = true ∧ z2.srcW (.r 1) = .ok 0#16 ∧
    z2.srcW (.mem (.ir 15)) = .ok 0#16 ∧ (1 : RegField) ∉ z2.pointerFields 15 ∧ z1.rmL (.r 12) = .ok 0#32 ∧
    (12 : RegField) ∉ z1.pointerFields 14 ∧ (14 : RegField) ∉ z2.pointerFields 15 ∧
    z1.rmL (.mem (.ir 2)) = .ok 0#32 ∧ sameField (.ir 2) 14 = false := by
  refine ⟨?_, rfl, rfl, ?_, rfl, ?_, ?_, rfl, ?_⟩ <;> decide +kernel
theorem witness_PopLoadsTop : (z2.pointer 15).even = true ∧ (14 : RegField) ∉ z2.pointerFields 15 ∧
    (z2.ea (.x (.ns 2) 1)).even = true ∧ sameField (.x (.ns 2) 1) 15 = false ∧ (15 : RegField) ∈ z2.pointerFields 15 ∧
    (14 + 1 : RegField) ∈ z2.pointerFields 15 ∧ (12 + 1 : RegField) ∉ z1.pointerFields 14 ∧
    sameField (.ir 15) 15 = true := by decide +kernel
theorem witness_AddSubWordLong : z2.srcW (.mem (.ir 1)) = .ok 0#16 ∧ z2.srcL (.mem (.da (.ns 0xFFFE))) = .ok 0#32 ∧
    z2.srcL (.im 0xFFFFFFFF) = .ok 0xFFFFFFFF#32 := ⟨rfl, rfl, rfl⟩
theorem witness_AddSubByte : z2.srcB (.mem (.da (.ns 0xFFFF))) = .ok 0#8 ∧ z2.srcB (.r 15) = .ok 0#8 := ⟨rfl, rfl⟩
theorem witness_CompareSetsFlags : z2.srcB (.im 1) = .ok 1#8 ∧ z2.srcW (.r 1) = .ok 0#16 ∧ z2.srcL (.r 2) = .ok 0#32 ∧
    (z2.ea (.ir 1)).even = true := ⟨rfl, rfl, rfl, by decide +kernel⟩
theorem witness_IncDecNeg : z2.rmB (.mem (.ir 1)) = .ok 0#8 ∧ z2.rmB (.r 15) = .ok 0#8 ∧ z2.rmW (.mem (.ir 1)) = .ok 0#16 ∧
    z2.rmW (.r 15) = .ok 0#16 := ⟨rfl, rfl, rfl, rfl⟩
/-- 99 + 99 and 15 - 42 in BCD, as ADDB and SUBB leave them. -/
theorem witness_DecimalAdjust :
    (let s := start 0x4084 [] [(0, 0x32)] []
     isBcd 0x99 = true ∧ s.readB 8 = 0x99#8 + 0x99#8 ∧ s.flags.d = false ∧
     s.flags.c = decide (256 ≤ (0x99#8).toNat + (0x99#8).toNat) ∧
     s.flags.h = decide (16 ≤ (0x99#8).toNat % 16 + (0x99#8).toNat % 16)) ∧
    (let s := start 0x4088 [] [(0, 0xD3)] []
     isBcd 0x15 = true ∧ isBcd 0x42 = true ∧ s.readB 8 = 0x15#8 - 0x42#8 ∧ s.flags.d = true ∧
     s.flags.c = decide ((0x15#8).toNat < (0x42#8).toNat) ∧
     s.flags.h = decide ((0x15#8).toNat % 16 < (0x42#8).toNat % 16)) := by decide +kernel
theorem witness_MultiplyExactProduct : z2.srcW (.im 0x8000) = .ok 0x8000#16 ∧ z2.srcL (.im 0x80000000) = .ok 0x80000000#32 := ⟨rfl, rfl⟩
/-- Divisor 0; a quotient at the end of the wide range (65535) and one past it (65536). -/
theorem witness_DivideFourCases : z2.srcW (.im 0) = .ok 0#16 ∧ z2.srcW (.im 1) = .ok 1#16 ∧ z2.srcL (.im 1) = .ok 1#32 ∧
    (z2.srcL (.im 0) = .ok 0#32) ∧
    (let q := ((start 0x4000 [] [(1, 0xFFFF)] []).readL 0).toInt.tdiv (1#16).toInt
     (1#16 : Word) ≠ 0 ∧ -(2 ^ 16 : Int) ≤ q ∧ q < 2 ^ 16) ∧
    (let q := ((start 0x4000 [] [(0, 1)] []).readL 0).toInt.tdiv (1#16).toInt
     q < -(2 ^ 16 : Int) ∨ 2 ^ 16 ≤ q) ∧
    (let q := ((start 0x4000 [] [(2, 0xFFFF), (3, 0xFFFF)] []).readQ 0).toInt.tdiv (1#32).toInt
     (1#32 : Long) ≠ 0 ∧ -(2 ^ 32 : Int) ≤ q ∧ q < 2 ^ 32) ∧
    (let q := ((start 0x4000 [] [(1, 1)] []).readQ 0).toInt.tdiv (1#32).toInt
     q < -(2 ^ 32 : Int) ∨ 2 ^ 32 ≤ q) := by
  refine ⟨rfl, rfl, rfl, rfl, ?_, ?_, ?_, ?_⟩ <;> decide +kernel
theorem witness_LogicalTwoOperand : z2.srcB (.im 0xFF) = .ok 0xFF#8 ∧ z2.srcW (.mem (.ir 1)) = .ok 0#16 := ⟨rfl, rfl⟩
theorem witness_ComplementTest : z2.rmB (.r 8) = .ok 0#8 ∧ z2.rmW (.mem (.ir 1)) = .ok 0#16 ∧ z2.rmL (.r 14) = .ok 0#32 :=
  ⟨rfl, rfl, rfl⟩
theorem witness_CallReturn : (z2.pointer z2.stackField).even = true ∧ (z1.pointer z1.stackField).even = true ∧
    z1.segmented = true ∧ z2.segmented = false ∧ Machine.cond 14 z2.flags = true ∧ Machine.cond 6 z2.flags = false := by
  decide +kernel
theorem witness_JumpTargets : Machine.cond 8 z2.flags = true ∧ Machine.cond 0 z2.flags = false := by decide +kernel
theorem witness_BitInstructions : z2.rmB (.r 0) = .ok 0#8 ∧ (7#4).toNat < 8 ∧ z2.rmW (.mem (.ir 1)) = .ok 0#16 :=
  ⟨rfl, by decide, rfl⟩
theorem witness_TestSet : z2.rmB (.r 0) = .ok 0#8 ∧ z2.rmW (.mem (.ir 1)) = .ok 0#16 := ⟨rfl, rfl⟩
theorem witness_RotateResults : (1 : RegField) = 1 ∧ (1 : RegField) ≠ 9 ∧ (9 : RegField) = 1 ^^^ 8 ∧ (2 : RegField) ≠ 1 ^^^ 8 := by
  decide
/-- Counts at both ends of each range, 0 between them. -/
theorem witness_ShiftResults : let k := fun (n : Word) => ((start 0x4000 [] [(1, n)] []).readW 1).toInt
    k 8 = 8 ∧ k 0xFFF8 = -8 ∧ k 16 = 16 ∧ k 0xFFF0 = -16 ∧ k 32 = 32 ∧ k 0xFFE0 = -32 ∧ k 0 = 0 ∧
    z2.cfg.shiftVPolicy = .anyStep ∧
    ({ z2 with cfg := { z2.cfg with shiftVPolicy := .endpoints } } : State).cfg.shiftVPolicy = .endpoints := by
  decide +kernel
theorem witness_SearchString : separate [z1.pointerFields 14, [1], [byteHome 8]] = true ∧
    separate [z2.pointerFields 15, [1], [2]] = true ∧ (z2.pointer 15).even = true := by decide +kernel
theorem witness_CompareStrings : separate [z1.pointerFields 14, z1.pointerFields 12, [1]] = true ∧
    (z1.pointer 14).even = true ∧ (z1.pointer 12).even = true := by decide +kernel
theorem witness_MoveBlock : separate [z1.pointerFields 14, z1.pointerFields 12, [1]] = true ∧
    z1.sparesOwnWords (z1.pointer 14) 1 = true ∧ z1.sparesOwnWords (z1.pointer 14) 2 = true ∧
    (z1.pointer 14).even = true ∧ (z1.pointer 12).even = true := by decide +kernel
theorem witness_TranslateString : separate [z1.pointerFields 14, z1.pointerFields 12, [2], [1]] = true ∧
    z1.sparesOwnWords (z1.pointer 14) 1 = true := by decide +kernel
theorem witness_OddAddressFaults :
    let s := start 0x6000 [] [(1, 1), (15, 0xFFFF)] []
    (s.eaRel 0xFFFF).even = false ∧ (s.eaB (.ba 1 0)).even = false ∧ (s.ea (.da (.ns 0xFFFF))).even = false ∧
    sameField (.da (.ns 0xFFFF)) 15 = false ∧
    s.fcw.sn = true ∧ s.fcw.epa = true ∧ (s.pointer 1).even = false ∧ (s.pointer s.stackField).even = false ∧
    Machine.cond 8 s.flags = true ∧ s.systemStack.even = false ∧ s.cfg.variant = .z8002 ∧
    (let u := { z2 with pcOff := 1#16 }; u.latch.boundaryEvent = .run ∧ u.latch.pcOff.getLsbD 0 = true) := by
  decide +kernel
/-- R1 holds %1000, which is two bytes into the words before the PC %1004; R2 is odd. -/
theorem witness_BlockFormsStop :
    let s := { start 0x4000 [] [(1, 0x1000), (2, 0x2001)] [] with pcOff := 0x1004#16 }
    separate [s.pointerFields 1, [2], [byteHome 10]] = false ∧ separate [s.pointerFields 1, [2], [2]] = false ∧
    separate [s.pointerFields 2, [3], [4]] = true ∧ (s.pointer 2).even = false ∧
    separate [s.pointerFields 1, s.pointerFields 1, [3]] = false ∧
    separate [s.pointerFields 1, s.pointerFields 2, [3]] = true ∧
    separate [s.pointerFields 1, s.pointerFields 4, [3]] = true ∧ (s.pointer 1).even = true ∧ (s.pointer 4).even = true ∧
    s.sparesOwnWords (s.pointer 2) 2 = true ∧ s.sparesOwnWords (s.pointer 1) 1 = false ∧
    s.sparesOwnWords (s.pointer 1) 2 = false ∧
    separate [s.pointerFields 4, s.pointerFields 5, [1], [1#4]] = false ∧
    (let u := { start 0x4000 [] [(6, 0x1003)] [] with pcOff := 0x1004#16 }
     separate [u.pointerFields 6, u.pointerFields 5, [3], [1#4]] = true ∧ u.sparesOwnWords (u.pointer 6) 1 = false) ∧
    s.fcw.sn = true ∧ separate [s.pointerFields 1, [3], [3]] = false ∧ separate [s.pointerFields 1, [3], [4]] = true ∧
    separate [s.pointerFields 2, [3], [4]] = true := by
  decide +kernel
theorem witness_SingleTransfer : z2.fcw.sn = true ∧ (withAnswers z2 [7#16] [] []).ioIn = [7#16] := by decide +kernel
theorem witness_BlockInput : z2.fcw.sn = true ∧ separate [z2.pointerFields 15, [1], [2]] = true ∧
    z2.sparesOwnWords (z2.pointer 15) 1 = true ∧ z2.sparesOwnWords (z2.pointer 15) 2 = true ∧
    (z2.pointer 15).even = true := by decide +kernel
theorem witness_BlockOutput : z1.fcw.sn = true ∧ separate [z1.pointerFields 14, [1], [2]] = true ∧
    (z1.pointer 14).even = true := by decide +kernel
theorem witness_ControlInstructions : z2.fcw.sn = true ∧ (z2.ea (.da (.ns 0xFFFE))).even = true ∧ z2.segmented = false ∧
    z1.fcw.sn = true ∧ (z1.ea (.ir 2)).even = true ∧ z1.segmented = true := by decide +kernel
theorem witness_LoadControl : z2.fcw.sn = true ∧ z1.fcw.sn = true ∧ z1.cfg.variant = .z8001 ∧ z1.segmented = true ∧
    ¬ z2.cfg.variant = .z8001 ∧ z1n.segmented = false := by decide +kernel
theorem witness_MultiMicro : z2.fcw.sn = true ∧ (withAnswers z2 [] [] [true]).miIn = [true] ∧
    (withAnswers z2 [] [] [false]).miIn = [false] ∧ (withAnswers z2 [] [] [true, false]).miIn = [true, false] := by
  decide +kernel
theorem witness_ExtendedTransfers : let s := withAnswers (mode .z8001 0xE000) [] [5#16] []
    s.fcw.epa = true ∧ (s.ea (.ir 2)).even = true ∧ s.segmented = true ∧ pairField 2 = true ∧ s.cfg.epuPresent = true ∧
    s.epuIn[0]? = some 5#16 ∧ pairField 1 = false := by decide +kernel

end Sys2Proof.Tests
end

section
/-! The condition codes (10_state R37): bit 3 of a code negates the condition that bits 2:0 select. -/

namespace Sys2Proof.Machine

/-- Rows 0 to 7 of the table: with bit 3 clear a code is the condition of its lower three bits. -/
theorem cond_zero_append (k : BitVec 3) (f : Flags) : cond (0#1 ++ k) f = condBase k f := by
  have bit3_clear : (0#1 ++ k).getLsbD 3 = false := by rw [BitVec.getLsbD_append]; rfl
  have low_bits : (0#1 ++ k).extractLsb' 0 3 = k := BitVec.extractLsb'_append_eq_right
  rw [cond, bit3_clear, low_bits, Bool.false_xor]

/-- Rows 8 to 15 of the table: with bit 3 set a code is the negated condition of its lower three bits. -/
theorem cond_one_append (k : BitVec 3) (f : Flags) : cond (1#1 ++ k) f = !condBase k f := by
  have bit3_set : (1#1 ++ k).getLsbD 3 = true := by rw [BitVec.getLsbD_append]; rfl
  have low_bits : (1#1 ++ k).extractLsb' 0 3 = k := BitVec.extractLsb'_append_eq_right
  rw [cond, bit3_set, low_bits, Bool.true_xor]

/-- Row 11, the one printed with its negation pushed inside the disjunction (of row 3). -/
theorem cond_eleven (f : Flags) : cond 11#4 f = (!f.c && !f.z) :=
  calc cond 11#4 f = !(f.c || f.z) := cond_one_append 3#3 f
    _ = (!f.c && !f.z) := Bool.not_or ..

/-- Settles O20: the lower half of the table is `condBase`, the upper half its negation row by row. -/
theorem conditionCodes : Obligations.ConditionCodes := by
  intro f
  have lower (k : BitVec 3) : cond (0#1 ++ k) f = condBase k f := cond_zero_append k f
  have upper (k : BitVec 3) : cond (1#1 ++ k) f = !condBase k f := cond_one_append k f
  exact ⟨lower 0, lower 1, lower 2, lower 3, lower 4, lower 5, lower 6, lower 7,
    upper 0, upper 1, upper 2, cond_eleven f, upper 4, upper 5, upper 6, upper 7⟩

end Sys2Proof.Machine
end

section
/-! Addition and subtraction with flags (41_arithmetic R250), at every width: the model's word arithmetic is the
integer sum or difference with its carry modulo `2^n`, and its sign bits are bit `n - 1`. -/

namespace Sys2Proof.Machine

variable {n : Nat} (a b : BitVec n) (c : Bool) (f : Flags)

theorem addR_eq_sumOf : addR a b c = sumOf a b c := by
  rw [addR, sumOf, BitVec.ofNat_add, BitVec.ofNat_add, BitVec.ofNat_toNat, BitVec.ofNat_toNat,
    BitVec.setWidth_eq, BitVec.setWidth_eq]

/-- The cast of the integers into `BitVec n` is a ring homomorphism, so it may be taken before or after subtracting. -/
theorem subR_eq_diffOf : subR a b c = diffOf a b c :=
  calc subR a b c = ((a.toNat : Int) : BitVec n) - ((b.toNat : Int) : BitVec n) - ((c.toNat : Int) : BitVec n) := by
        simp [subR]
    _ = (((a.toNat : Int) - b.toNat - c.toNat : Int) : BitVec n) := by rw [Int.cast_sub, Int.cast_sub]
    _ = diffOf a b c := rfl

/-- `r` of `ADD_N`. -/
theorem toNat_addR : (addR a b c).toNat = (a.toNat + b.toNat + c.toNat) % 2 ^ n := by
  rw [addR_eq_sumOf, sumOf, BitVec.toNat_ofNat]

/-- `r` of `SUB_N`: the remainder is never negative, so it is the unsigned value of the result. -/
theorem toNat_subR : ((subR a b c).toNat : Int) = ((a.toNat : Int) - b.toNat - c.toNat) % 2 ^ n := by
  have modulus_ne_zero : (2 : Int) ^ n ≠ 0 := by positivity
  rw [subR_eq_diffOf, diffOf, BitVec.toNat_ofInt, Nat.cast_pow, Nat.cast_ofNat,
    Int.toNat_of_nonneg (Int.emod_nonneg _ modulus_ne_zero)]

/-- `Cout` of `SUB_N`: there is a borrow when the integer difference is negative. -/
theorem subC_eq_diff_neg : subC a b c = decide ((a.toNat : Int) - b.toNat - c.toNat < 0) :=
  decide_eq_decide.mpr (by omega)

/-- `Hout` of `SUB_N`: the borrow of the low four bits. -/
theorem subH_eq_diff_neg : subH a b c = decide ((a.toNat % 16 : Int) - (b.toNat % 16 : Nat) - c.toNat < 0) :=
  decide_eq_decide.mpr (by omega)

/-- `Vout` of `ADD_N`, read at bit `n - 1`. -/
theorem addV_eq_sign_bits : addV a b c =
    decide (a.getLsbD (n - 1) = b.getLsbD (n - 1) ∧ (addR a b c).getLsbD (n - 1) ≠ a.getLsbD (n - 1)) := by
  rw [Bool.eq_iff_iff]
  simp [addV, BitVec.msb_eq_getLsbD_last]

/-- `Vout` of `SUB_N`, read at bit `n - 1`. -/
theorem subV_eq_sign_bits : subV a b c =
    decide (a.getLsbD (n - 1) ≠ b.getLsbD (n - 1) ∧ (subR a b c).getLsbD (n - 1) = b.getLsbD (n - 1)) := by
  rw [Bool.eq_iff_iff]
  simp [subV, BitVec.msb_eq_getLsbD_last]

/-- `Zout` and `Sout`: Z says that the result is zero, S is its bit `n - 1`. -/
theorem Flags.zs_eq_zero_and_sign_bit (r : BitVec n) :
    f.zs r = { f with z := decide (r.toNat = 0), s := r.getLsbD (n - 1) } := by
  have zero_iff : (r == 0) = decide (r.toNat = 0) := by
    rw [Bool.eq_iff_iff]
    simp [BitVec.toNat_eq]
  rw [Flags.zs, zero_iff, BitVec.msb_eq_getLsbD_last]

/-- ADD, ADDL, ADC: the sum, and the four flags of R250. -/
theorem addAlu_eq_sum_and_flags : addAlu c a b f =
    (addR a b c, { f with c := addC a b c, z := decide ((addR a b c).toNat = 0),
                          s := (addR a b c).getLsbD (n - 1), pv := addV a b c }) := by
  rw [addAlu, Flags.zs_eq_zero_and_sign_bit]

/-- SUB, SUBL, SBC, CP: the difference, and the four flags of R250. -/
theorem subAlu_eq_diff_and_flags : subAlu c a b f =
    (subR a b c, { f with c := subC a b c, z := decide ((subR a b c).toNat = 0),
                          s := (subR a b c).getLsbD (n - 1), pv := subV a b c }) := by
  rw [subAlu, Flags.zs_eq_zero_and_sign_bit]

end Sys2Proof.Machine

namespace Sys2Proof.Machine

/-- Settles O22: every clause holds at every width. The carry and half carry of the sum are R250's by definition;
those of the difference turn a comparison of naturals into the sign of an integer. -/
theorem addSubtract : Obligations.AddSubtract := by
  intro n _ a b c f
  exact
    ⟨⟨toNat_addR a b c, rfl, addV_eq_sign_bits a b c, rfl, addAlu_eq_sum_and_flags a b c f⟩,
      toNat_subR a b c, subC_eq_diff_neg a b c, subV_eq_sign_bits a b c, subH_eq_diff_neg a b c,
      subAlu_eq_diff_and_flags a b c f⟩

end Sys2Proof.Machine
end

section
/-! The decoder reads what the encoder writes (30_encoding sections 1 to 5): the fields of an assembled word, the
operand parsers on the words of an operand, then one lemma per encoding format, each instruction being one use of the
lemma of its format. -/

namespace Sys2Proof

/-! ### Fields of assembled words -/

section
variable (m : BitVec 2) (op : BitVec 6) (a b c d : BitVec 4)

@[simp] theorem fB_mkWord : fB (mkWord m op a b) = b := BitVec.extractLsb'_append_eq_right

@[simp] theorem fA_mkWord : fA (mkWord m op a b) = a :=
  (BitVec.extractLsb'_append_eq_of_le (by decide)).trans BitVec.extractLsb'_append_eq_right

@[simp] theorem fOp_mkWord : fOp (mkWord m op a b) = op :=
  (BitVec.extractLsb'_append_eq_of_le (by decide)).trans
    ((BitVec.extractLsb'_append_eq_of_le (by decide)).trans BitVec.extractLsb'_append_eq_right)

@[simp] theorem fMode_mkWord : fMode (mkWord m op a b) = m :=
  (BitVec.extractLsb'_append_eq_of_le (by decide)).trans
    ((BitVec.extractLsb'_append_eq_of_le (by decide)).trans BitVec.extractLsb'_append_eq_left)

@[simp] theorem nib0_mkNibs : nib0 (mkNibs a b c d) = d := BitVec.extractLsb'_append_eq_right

@[simp] theorem nib1_mkNibs : nib1 (mkNibs a b c d) = c :=
  (BitVec.extractLsb'_append_eq_of_le (by decide)).trans BitVec.extractLsb'_append_eq_right

@[simp] theorem nib2_mkNibs : nib2 (mkNibs a b c d) = b :=
  (BitVec.extractLsb'_append_eq_of_le (by decide)).trans
    ((BitVec.extractLsb'_append_eq_of_le (by decide)).trans BitVec.extractLsb'_append_eq_right)

@[simp] theorem nib3_mkNibs : nib3 (mkNibs a b c d) = a :=
  (BitVec.extractLsb'_append_eq_of_le (by decide)).trans
    ((BitVec.extractLsb'_append_eq_of_le (by decide)).trans BitVec.extractLsb'_append_eq_left)

/-- Mode bits other than 11 lead to format F1. -/
theorem decodeShape_mkWord (seg : Bool) {m : BitVec 2} (hm : m ≠ 3#2) (ws : List Word) :
    decodeShape seg (mkWord m op a b :: ws) = decodeF1 seg (mkWord m op a b) m op a b ws := by
  simp [decodeShape, hm]

end

/-! ### Operands -/

theorem imm8_roundtrip (v : BitVec 8) (ws : List Word) : pImm8 (imm8Words v ++ ws) = .ok (v, ws) := by
  simp [pImm8, imm8Words, pWord, pMap]

theorem imm16_roundtrip (v : BitVec 16) (ws : List Word) : pWord ([v] ++ ws) = .ok (v, ws) := rfl

theorem imm32_roundtrip (v : BitVec 32) (ws : List Word) : pImm32 (imm32Words v ++ ws) = .ok (v, ws) :=
  congrArg (fun x => Except.ok (x, ws)) (Machine.halves16_eta v)

/-- The first bit tells the short form from the long one, whose low byte is ignored (20_memory R83). -/
theorem pAddr_words {seg : Bool} {a : Addr} (h : a.wf seg = true) (ws : List Word) :
    pAddr seg (a.words ++ ws) = .ok (a, ws) := by
  cases a with
  | ns o =>
    cases seg with
    | false => rfl
    | true => cases h
  | short g o =>
    cases h
    have tag : (0#1 ++ g ++ o).getLsbD 15 = false := (BitVec.getLsbD_append ..).trans (BitVec.getLsbD_append ..)
    have number : (0#1 ++ g ++ o).extractLsb' 8 7 = g :=
      (BitVec.extractLsb'_append_eq_of_le (by decide)).trans BitVec.extractLsb'_append_eq_right
    have offset : (0#1 ++ g ++ o).extractLsb' 0 8 = o := BitVec.extractLsb'_append_eq_right
    show (if (0#1 ++ g ++ o).getLsbD 15 = true then _ else Except.ok (_, ws)) = _
    rw [tag, number, offset]
    rfl
  | long g o =>
    cases h
    have tag : (1#1 ++ g ++ 0#8).getLsbD 15 = true := (BitVec.getLsbD_append ..).trans (BitVec.getLsbD_append ..)
    have number : (1#1 ++ g ++ 0#8).extractLsb' 8 7 = g :=
      (BitVec.extractLsb'_append_eq_of_le (by decide)).trans BitVec.extractLsb'_append_eq_right
    show (if (1#1 ++ g ++ 0#8).getLsbD 15 = true then Except.ok (_, ws) else _) = _
    rw [tag, number]
    rfl

/-- DA and X, told apart by the field. -/
theorem pDaX_words {seg : Bool} {x : Mem} (hm : x.mode = 1#2) (h : x.wfEpa seg = true) (ws : List Word) :
    pDaX seg x.field (x.words ++ ws) = .ok (x, ws) := by
  cases x with
  | ir r => cases hm
  | da a => simp [pDaX, Mem.words, Mem.field, pAddr_words (a := a) h, pMap]
  | x a i =>
    obtain ⟨ha, hi⟩ : a.wf seg = true ∧ i ≠ 0#4 := by simpa [Mem.wfEpa, indexField] using h
    simp [pDaX, Mem.words, Mem.field, pAddr_words ha, pMap, hi]

theorem pMem_words {seg : Bool} {x : Mem} (h : x.wfEpa seg = true) (ws : List Word) :
    pMem seg x.mode x.field (x.words ++ ws) = .ok (x, ws) := by
  cases x with
  | ir r =>
    have hr : r ≠ 0#4 := by simpa [Mem.wfEpa] using h
    simp [pMem, Mem.mode, Mem.field, Mem.words, hr]
  | da a => exact pDaX_words rfl h ws
  | x a i => exact pDaX_words rfl h ws

/-- An address register that is a pair is one. -/
theorem Mem.wfEpa_of_wf {seg : Bool} {x : Mem} (h : x.wf seg = true) : x.wfEpa seg = true := by
  cases x with
  | ir r => exact ((Bool.and_eq_true ..).mp h).1
  | da a => exact h
  | x a i => exact h

/-- What a register or memory operand needs to be read back: its memory form, if it is one, is well formed. -/
def RM.memWf (seg : Bool) (x : RM) : Prop := ∀ m, x = .mem m → m.wf seg = true

theorem RM.memWf_of_wf {seg : Bool} {x : RM} (h : x.wf seg = true) : x.memWf seg := by rintro m rfl; exact h
theorem RM.memWf_of_wfPair {seg : Bool} {x : RM} (h : x.wfPair seg = true) : x.memWf seg := by rintro m rfl; exact h

theorem pRM_words {seg : Bool} {x : RM} (h : x.memWf seg) (ws : List Word) :
    pRM seg x.mode x.field (x.words ++ ws) = .ok (x, ws) := by
  cases x with
  | r f => rfl
  | mem m =>
    have read := pMem_words (Mem.wfEpa_of_wf (h m rfl)) ws
    cases m <;> exact congrArg (pMap RM.mem) read

def Src.memWf {n : Nat} (seg : Bool) (x : Src n) : Prop := ∀ m, x = .mem m → m.wf seg = true

theorem Src.memWf_of_wf {n : Nat} {seg : Bool} {x : Src n} (h : x.wf seg = true) : x.memWf seg := by
  rintro m rfl; exact h
theorem Src.memWf_of_wfPair {n : Nat} {seg : Bool} {x : Src n} (h : x.wfPair seg = true) : x.memWf seg := by
  rintro m rfl; exact h

def LdSrc.memWf {n : Nat} (seg : Bool) (x : LdSrc n) : Prop := ∀ m, x = .mem m → m.wf seg = true

theorem LdSrc.memWf_of_wf {n : Nat} {seg : Bool} {x : LdSrc n} (h : x.wf seg = true) : x.memWf seg := by
  rintro m rfl; exact h
theorem LdSrc.memWf_of_wfPair {n : Nat} {seg : Bool} {x : LdSrc n} (h : x.wfPair seg = true) : x.memWf seg := by
  rintro m rfl; exact h

theorem pIndexWord_indexWord (x : RegField) (ws : List Word) : pIndexWord (indexWord x :: ws) = .ok (x, ws) := by
  simp [pIndexWord, pWord, pBind, indexWord]

theorem pNibs_mkNibs (x y z : BitVec 4) (ws : List Word) : pNibs (mkNibs 0#4 x y z :: ws) = .ok ((x, y, z), ws) := by
  simp [pNibs, pWord, pBind]

theorem Mem.mode_ne (x : Mem) : x.mode ≠ 3#2 ∧ x.mode ≠ 2#2 := by
  cases x <;> exact ⟨nofun, nofun⟩
theorem RM.mode_ne (x : RM) : x.mode ≠ 3#2 := by
  cases x with
  | r f => exact nofun
  | mem m => exact m.mode_ne.1

/-! ### One lemma per format

`arm` says which parser the first word's fields select; it holds by computation for each opcode. -/

section
variable {seg : Bool} {op opB : BitVec 6} {f : BitVec 4}

theorem decode_encRM {mk : RM → Instr} (arm : ∀ w m a ws, decodeF1 seg w m op a f ws = pMap mk (pRM seg m a ws))
    {x : RM} (h : x.memWf seg) (rest : List Word) : decodeShape seg (encRM op x f ++ rest) = .ok (mk x, rest) := by
  show decodeShape seg (mkWord x.mode op x.field f :: (x.words ++ rest)) = _
  rw [decodeShape_mkWord _ _ _ _ x.mode_ne, arm, pRM_words h]
  rfl

theorem decode_encMem {mk : Mem → Instr}
    (arm : ∀ w m a ws, m ≠ 2#2 → decodeF1 seg w m op a f ws = pMap mk (pMem seg m a ws))
    {x : Mem} (h : x.wf seg = true) (rest : List Word) : decodeShape seg (encMem op x f ++ rest) = .ok (mk x, rest) := by
  show decodeShape seg (mkWord x.mode op x.field f :: (x.words ++ rest)) = _
  rw [decodeShape_mkWord _ _ _ _ x.mode_ne.1, arm _ _ _ _ x.mode_ne.2, pMem_words (Mem.wfEpa_of_wf h)]
  rfl

/-- A memory operand followed by an immediate. -/
theorem decode_encMem_imm {n : Nat} {imm : List Word → Parse (BitVec n)} {enc : BitVec n → List Word}
    (himm : ∀ v ws, imm (enc v ++ ws) = .ok (v, ws)) {mk : Mem → BitVec n → Instr}
    (arm : ∀ w m a ws, m ≠ 2#2 →
      decodeF1 seg w m op a f ws = pBind (pMem seg m a ws) fun x r => pMap (mk x) (imm r))
    {x : Mem} (h : x.wf seg = true) (v : BitVec n) (rest : List Word) :
    decodeShape seg (encMem op x f ++ enc v ++ rest) = .ok (mk x v, rest) := by
  show decodeShape seg (mkWord x.mode op x.field f :: (x.words ++ enc v ++ rest)) = _
  rw [decodeShape_mkWord _ _ _ _ x.mode_ne.1, arm _ _ _ _ x.mode_ne.2, List.append_assoc,
    pMem_words (Mem.wfEpa_of_wf h)]
  show pMap (mk x) (imm (enc v ++ rest)) = _
  rw [himm]
  rfl

theorem decode_encSrc {n : Nat} {imm : List Word → Parse (BitVec n)} {enc : BitVec n → List Word}
    (himm : ∀ v ws, imm (enc v ++ ws) = .ok (v, ws)) {mk : Src n → Instr}
    (arm : ∀ w m a ws, decodeF1 seg w m op a f ws = pMap mk (pSrc imm seg m a ws))
    {x : Src n} (h : x.memWf seg) (rest : List Word) :
    decodeShape seg (encSrc enc op x f ++ rest) = .ok (mk x, rest) := by
  cases x with
  | r g =>
    show decodeShape seg (mkWord 2#2 op g f :: rest) = _
    rw [decodeShape_mkWord _ _ _ _ (by decide), arm]
    rfl
  | im v =>
    show decodeShape seg (mkWord 0#2 op 0#4 f :: (enc v ++ rest)) = _
    rw [decodeShape_mkWord _ _ _ _ (by decide), arm]
    show pMap mk (pMap Src.im (imm (enc v ++ rest))) = _
    rw [himm]
    rfl
  | mem m =>
    have read := pMem_words (Mem.wfEpa_of_wf (h m rfl)) rest
    show decodeShape seg (mkWord m.mode op m.field f :: (m.words ++ rest)) = _
    rw [decodeShape_mkWord _ _ _ _ m.mode_ne.1, arm]
    cases m with
    | ir r =>
      have hr : r ≠ 0#4 := by simpa [Mem.wfEpa] using Mem.wfEpa_of_wf (h _ rfl)
      simp [pSrc, pMap, Mem.mode, Mem.field, Mem.words, hr]
    | da a => exact congrArg (fun p => pMap mk (pMap Src.mem p)) read
    | x a i => exact congrArg (fun p => pMap mk (pMap Src.mem p)) read

/-- A load or store operand: format F1, or the opcode of BA and BX, which the base register 0 makes RA. -/
theorem decode_encMemB {mk : MemB → Instr} {ra : Word → Instr}
    (arm : ∀ w m a ws, m ≠ 2#2 → decodeF1 seg w m op a f ws = pMap (fun x => mk (.mem x)) (pMem seg m a ws))
    (armB : ∀ w m a ws, m ≠ 2#2 → decodeF1 seg w m opB a f ws = pBase mk ra m a ws)
    {x : MemB} (h : x.wf seg = true) (rest : List Word) :
    decodeShape seg (encMemB op opB x f ++ rest) = .ok (mk x, rest) := by
  cases x with
  | mem m => exact decode_encMem (mk := fun x => mk (.mem x)) arm h rest
  | ba b d =>
    have hb : b ≠ 0#4 := by simpa using ((Bool.and_eq_true ..).mp h).1
    show decodeShape seg (mkWord 0#2 opB b f :: d :: rest) = _
    rw [decodeShape_mkWord _ _ _ _ (by decide), armB _ _ _ _ (by decide)]
    simp [pBase, pWord, pMap, hb]
  | bx b i =>
    show decodeShape seg (mkWord 1#2 opB b f :: indexWord i :: rest) = _
    rw [decodeShape_mkWord _ _ _ _ (by decide), armB _ _ _ _ (by decide)]
    show pMap (fun x => mk (.bx b x)) (pIndexWord (indexWord i :: rest)) = _
    rw [pIndexWord_indexWord]
    rfl

/-- The RA loads and stores: field 0 where BA names its base register. -/
theorem decode_relative {mk : MemB → Instr} {ra : Word → Instr}
    (armB : ∀ w m a ws, m ≠ 2#2 → decodeF1 seg w m opB a f ws = pBase mk ra m a ws) (disp : Word) (rest : List Word) :
    decodeShape seg (mkWord 0#2 opB 0#4 f :: disp :: rest) = .ok (ra disp, rest) := by
  rw [decodeShape_mkWord _ _ _ _ (by decide), armB _ _ _ _ (by decide)]
  rfl

theorem decode_encLdSrc {n : Nat} {imm : List Word → Parse (BitVec n)} {enc : BitVec n → List Word}
    (himm : ∀ v ws, imm (enc v ++ ws) = .ok (v, ws)) {mk : LdSrc n → Instr} {ra : Word → Instr}
    (arm : ∀ w m a ws, decodeF1 seg w m op a f ws = pMap mk (pLdSrc imm seg m a ws))
    (armB : ∀ w m a ws, m ≠ 2#2 → decodeF1 seg w m opB a f ws = pBase (fun x => mk (.mem x)) ra m a ws)
    {x : LdSrc n} (h : x.memWf seg) (rest : List Word) :
    decodeShape seg (encLdSrc enc op opB x f ++ rest) = .ok (mk x, rest) := by
  cases x with
  | r g =>
    show decodeShape seg (mkWord 2#2 op g f :: rest) = _
    rw [decodeShape_mkWord _ _ _ _ (by decide), arm]
    rfl
  | im v =>
    show decodeShape seg (mkWord 0#2 op 0#4 f :: (enc v ++ rest)) = _
    rw [decodeShape_mkWord _ _ _ _ (by decide), arm]
    show pMap mk (pMap LdSrc.im (imm (enc v ++ rest))) = _
    rw [himm]
    rfl
  | mem m =>
    show decodeShape seg (encMemB op opB m f ++ rest) = _
    cases m with
    | mem m =>
      have read := pMem_words (Mem.wfEpa_of_wf (h _ rfl)) rest
      show decodeShape seg (mkWord m.mode op m.field f :: (m.words ++ rest)) = _
      rw [decodeShape_mkWord _ _ _ _ m.mode_ne.1, arm]
      cases m with
      | ir r =>
        have hr : r ≠ 0#4 := by simpa [Mem.wfEpa] using Mem.wfEpa_of_wf (x := .ir r) (h _ rfl)
        simp [pLdSrc, pMap, Mem.mode, Mem.field, Mem.words, hr]
      | da a => exact congrArg (fun p => pMap mk (pMap (fun x => LdSrc.mem (.mem x)) p)) read
      | x a i => exact congrArg (fun p => pMap mk (pMap (fun x => LdSrc.mem (.mem x)) p)) read
    | ba b d =>
      have hb : b ≠ 0#4 := by simpa using ((Bool.and_eq_true ..).mp (h _ rfl)).1
      show decodeShape seg (mkWord 0#2 opB b f :: d :: rest) = _
      rw [decodeShape_mkWord _ _ _ _ (by decide), armB _ _ _ _ (by decide)]
      simp [pBase, pWord, pMap, hb]
    | bx b i =>
      show decodeShape seg (mkWord 1#2 opB b f :: indexWord i :: rest) = _
      rw [decodeShape_mkWord _ _ _ _ (by decide), armB _ _ _ _ (by decide)]
      show pMap (fun x => mk (.mem (.bx b x))) (pIndexWord (indexWord i :: rest)) = _
      rw [pIndexWord_indexWord]
      rfl

/-- PUSH, PUSHL, POP, POPL: the stack pointer in field A, the operand in field B. -/
theorem decode_encStack {sp : RegField} {mk : RM → Instr}
    (armR : ∀ w b ws, decodeF1 seg w 2#2 op sp b ws = .ok (mk (.r b), ws))
    (armIr : ∀ w b ws, decodeF1 seg w 0#2 op sp b ws = .ok (mk (.mem (.ir b)), ws))
    (armDaX : ∀ w b ws, decodeF1 seg w 1#2 op sp b ws = pMap (fun x => mk (.mem x)) (pDaX seg b ws))
    {x : RM} (h : x.memWf seg) (rest : List Word) : decodeShape seg (encStack op sp x ++ rest) = .ok (mk x, rest) := by
  show decodeShape seg (mkWord x.mode op sp x.field :: (x.words ++ rest)) = _
  rw [decodeShape_mkWord _ _ _ _ x.mode_ne]
  cases x with
  | r f => exact armR _ _ _
  | mem m =>
    have hm := Mem.wfEpa_of_wf (h m rfl)
    cases m with
    | ir r => exact armIr _ _ _
    | da a => exact (armDaX ..).trans (congrArg (pMap _) (pDaX_words rfl hm rest))
    | x a i => exact (armDaX ..).trans (congrArg (pMap _) (pDaX_words rfl hm rest))

/-- The static bit instructions in all their modes; mode 00 with field 0 is the dynamic form (R133). -/
theorem decode_static_bit {stat : RM → BitVec 4 → Instr} {dyn : RegField → RegField → Instr}
    (arm : ∀ w m a ws, decodeF1 seg w m op a f ws = pBit stat dyn seg m a f ws)
    {x : RM} (h : x.memWf seg) (rest : List Word) : decodeShape seg (encRM op x f ++ rest) = .ok (stat x f, rest) := by
  have not_dynamic : ¬ (x.mode = 0#2 ∧ x.field = 0#4) := by
    rintro ⟨hm, hf⟩
    match x, h with
    | .mem (.ir r), h =>
      have hr : r ≠ 0#4 := by simpa [Mem.wfEpa] using Mem.wfEpa_of_wf (h _ rfl)
      exact hr hf
  show decodeShape seg (mkWord x.mode op x.field f :: (x.words ++ rest)) = _
  rw [decodeShape_mkWord _ _ _ _ x.mode_ne, arm, pBit, if_neg not_dynamic, pRM_words h]
  rfl

theorem decode_encDyn {stat : RM → BitVec 4 → Instr} {dyn : RegField → RegField → Instr}
    (arm : ∀ w m a ws, decodeF1 seg w m op a f ws = pBit stat dyn seg m a f ws) (d : RegField) (rest : List Word) :
    decodeShape seg (encDyn op d f ++ rest) = .ok (dyn d f, rest) := by
  show decodeShape seg (mkWord 0#2 op 0#4 f :: indexWord d :: rest) = _
  rw [decodeShape_mkWord _ _ _ _ (by decide), arm]
  show pMap (fun d => dyn d f) (pIndexWord (indexWord d :: rest)) = _
  rw [pIndexWord_indexWord]
  rfl

/-- A one-word form, and a form whose second word is any word. -/
theorem decode_oneWord {m : BitVec 2} (hm : m ≠ 3#2) {a : BitVec 4} {i : Instr} (rest : List Word)
    (arm : ∀ w, decodeF1 seg w m op a f rest = .ok (i, rest)) :
    decodeShape seg (mkWord m op a f :: rest) = .ok (i, rest) := by
  rw [decodeShape_mkWord _ _ _ _ hm, arm]

theorem decode_twoWords {m : BitVec 2} (hm : m ≠ 3#2) {a : BitVec 4} {i : Instr} {v : Word} (rest : List Word)
    (arm : ∀ w, decodeF1 seg w m op a f (v :: rest) = .ok (i, rest)) :
    decodeShape seg (mkWord m op a f :: v :: rest) = .ok (i, rest) := by
  rw [decodeShape_mkWord _ _ _ _ hm, arm]

/-- A two-word form of F5, whose second word is `0000 | cnt | d | low`. -/
theorem decode_encBlock {m : BitVec 2} (hm : m ≠ 3#2) {sub : BitVec 4} (g cnt d low : BitVec 4) {i : Instr}
    {k : BitVec 4 × BitVec 4 × BitVec 4 → List Word → Parse Instr} (rest : List Word)
    (arm : ∀ w ws, decodeF1 seg w m op g sub ws = pBind (pNibs ws) k) (hk : k (cnt, d, low) rest = .ok (i, rest)) :
    decodeShape seg (encBlock m op sub g cnt d low ++ rest) = .ok (i, rest) := by
  show decodeShape seg (mkWord m op g sub :: mkNibs 0#4 cnt d low :: rest) = _
  rw [decodeShape_mkWord _ _ _ _ hm, arm, pNibs_mkNibs]
  exact hk

theorem decode_encLdm {sub : BitVec 4} {mk : RegField → Mem → BitVec 4 → Instr}
    (arm : ∀ w m a ws, m ≠ 2#2 → decodeF1 seg w m 0x1C#6 a sub ws =
      pBind (pLdmWord ws) fun v r => pMap (fun x => mk v.1 x v.2) (pMem seg m a r))
    {x : Mem} (h : x.wf seg = true) (g num : BitVec 4) (rest : List Word) :
    decodeShape seg (encLdm sub x g num ++ rest) = .ok (mk g x num, rest) := by
  have second_word : pLdmWord (mkNibs 0#4 g 0#4 num :: (x.words ++ rest)) = .ok ((g, num), x.words ++ rest) := by
    simp [pLdmWord, pNibs_mkNibs, pBind]
  show decodeShape seg (mkWord x.mode 0x1C#6 x.field sub :: mkNibs 0#4 g 0#4 num :: (x.words ++ rest)) = _
  rw [decodeShape_mkWord _ _ _ _ x.mode_ne.1, arm _ _ _ _ x.mode_ne.2, second_word]
  show pMap (fun x => mk g x num) (pMem seg x.mode x.field (x.words ++ rest)) = _
  rw [pMem_words (Mem.wfEpa_of_wf h)]
  rfl

/-- A dynamic shift: the count register in the second word. -/
theorem decode_dynamicShift {mk : RegField → RegField → Instr} {a : BitVec 4}
    (arm : ∀ w ws, decodeF1 seg w 2#2 op a f ws = pDynShift mk a ws) (g : RegField) (rest : List Word) :
    decodeShape seg (mkWord 2#2 op a f :: indexWord g :: rest) = .ok (mk a g, rest) := by
  rw [decodeShape_mkWord _ _ _ _ (by decide), arm, pDynShift, pIndexWord_indexWord]
  rfl

/-- A static shift: the sign of the count tells left from right (R132). -/
theorem decode_shift8 {left right : RegField → BitVec 8 → Instr} {a : BitVec 4}
    (arm : ∀ w ws, decodeF1 seg w 2#2 op a f ws = pShift8 left right a ws) (c : BitVec 8) (rest : List Word) :
    decodeShape seg (mkWord 2#2 op a f :: (0#8 ++ c) :: rest) = .ok (if c.msb then right a c else left a c, rest) := by
  have low_byte : pImm8 ((0#8 ++ c) :: rest) = .ok (c, rest) := by
    simp [pImm8, pWord, pMap]
  rw [decodeShape_mkWord _ _ _ _ (by decide), arm, pShift8, low_byte]
  rfl

theorem decode_shift16 {left right : RegField → BitVec 16 → Instr} {a : BitVec 4}
    (arm : ∀ w ws, decodeF1 seg w 2#2 op a f ws = pShift16 left right a ws) (c : BitVec 16) (rest : List Word) :
    decodeShape seg (mkWord 2#2 op a f :: c :: rest) = .ok (if c.msb then right a c else left a c, rest) := by
  rw [decodeShape_mkWord _ _ _ _ (by decide), arm]
  rfl

end

/-- What `decode_shift8` and `decode_shift16` give for a well-formed count. -/
theorem leftCount_select {n : Nat} {c : BitVec n} (h : leftCount c = true) {α : Type} (x y : α) :
    (if c.msb then y else x) = x := if_neg (by simpa [leftCount] using h)

theorem rightCount_select {n : Nat} {c : BitVec n} (h : rightCount c = true) {α : Type} (x y : α) :
    (if c.msb then y else x) = y := if_pos h

/-! ### The extended templates (49_extended R551) -/

section
variable (m : BitVec 2) (op : BitVec 6) (a : BitVec 4) (sel u : BitVec 2)

theorem upper_mkWord (b : BitVec 4) : (mkWord m op a b).extractLsb' 8 8 = m ++ op :=
  (BitVec.extractLsb'_append_eq_of_le (by decide)).trans
    ((BitVec.extractLsb'_append_eq_of_le (by decide)).trans BitVec.extractLsb'_eq_self)

/-- Field B of a template is a selector and two bits that the CPU ignores. -/
theorem selector_mkWord : (mkWord m op a (sel ++ u)).extractLsb' 2 2 = sel :=
  (BitVec.extractLsb'_append_eq_of_add_le (by decide)).trans BitVec.extractLsb'_append_eq_left

theorem ignored_mkWord : (mkWord m op a (sel ++ u)).extractLsb' 0 2 = u :=
  (BitVec.extractLsb'_append_eq_of_add_le (by decide)).trans BitVec.extractLsb'_append_eq_right

theorem selector_bits_mkWord : (mkWord m op a (sel ++ u)).getLsbD 3 = sel.getLsbD 1 ∧
    (mkWord m op a (sel ++ u)).getLsbD 2 = sel.getLsbD 0 :=
  ⟨(BitVec.getLsbD_append ..).trans (BitVec.getLsbD_append ..),
    (BitVec.getLsbD_append ..).trans (BitVec.getLsbD_append ..)⟩

/-- In a register template field A is a 0 and three bits that the CPU ignores. -/
theorem register_template_mkWord (v : BitVec 3) (b : BitVec 4) :
    (mkWord m op (0#1 ++ v) b).extractLsb' 4 3 = v ∧ (mkWord m op (0#1 ++ v) b).getLsbD 7 = false :=
  ⟨(BitVec.extractLsb'_append_eq_of_le (by decide)).trans
      ((BitVec.extractLsb'_append_eq_of_add_le (by decide)).trans BitVec.extractLsb'_append_eq_right),
    (BitVec.getLsbD_append ..).trans ((BitVec.getLsbD_append ..).trans (BitVec.getLsbD_append ..))⟩

end

/-- The parser of a word that matches a memory template. -/
theorem decodeEpa_mem {seg : Bool} {x : Mem} (h : x.wfEpa seg = true) {sel : BitVec 2} (hsel : sel = 3#2 ∨ sel = 1#2)
    (u : BitVec 2) (v : BitVec 12) (num : BitVec 4) (rest : List Word) :
    decodeEpa seg (mkWord x.mode 0x0F#6 x.field (sel ++ u)) ((v ++ num) :: (x.words ++ rest)) =
      .ok (if sel.getLsbD 1 then .epaStm x u v num else .epaLdm x u v num, rest) := by
  have low : nib0 (v ++ num) = num := BitVec.extractLsb'_append_eq_right
  have high : (v ++ num).extractLsb' 4 12 = v := BitVec.extractLsb'_append_eq_left
  have matches_template : epaMatches (mkWord x.mode 0x0F#6 x.field (sel ++ u)) (v ++ num) = true := by
    have field : (mkWord x.mode 0x0F#6 x.field (sel ++ u)).extractLsb' 4 4 = x.field := fA_mkWord ..
    have sel_ok : (sel == 3#2 || sel == 1#2) = true := by simpa using hsel
    have ir_or_addressed : (x.mode = 0#2 ∧ x.field ≠ 0#4) ∨ x.mode = 1#2 := by
      cases x with
      | ir r => exact .inl ⟨rfl, by simpa [Mem.wfEpa, Mem.field] using h⟩
      | da a => exact .inr rfl
      | x a i => exact .inr rfl
    rw [epaMatches, upper_mkWord, selector_mkWord, field, sel_ok]
    rcases ir_or_addressed with ⟨mode, nonzero⟩ | mode
    · rw [mode]
      exact (Bool.and_true _).trans (bne_iff_ne.mpr nonzero)
    · rw [mode]
      rfl
  have not_register : x.mode ≠ 2#2 := x.mode_ne.2
  simp only [decodeEpa, pWord, pBind, matches_template, fOp_mkWord, fMode_mkWord, fA_mkWord, not_register, if_true,
    if_false, ignored_mkWord, (selector_bits_mkWord ..).1, low, high, pMem_words h, pMap,
    show (0x0F#6).getLsbD 0 = true from rfl]

theorem decode_epaMem {seg : Bool} {x : Mem} (h : x.wfEpa seg = true) {sel : BitVec 2} (hsel : sel = 3#2 ∨ sel = 1#2)
    (u : BitVec 2) (v : BitVec 12) (num : BitVec 4) (rest : List Word) :
    decodeShape seg (mkWord x.mode 0x0F#6 x.field (sel ++ u) :: (v ++ num) :: (x.words ++ rest)) =
      .ok (if sel.getLsbD 1 then .epaStm x u v num else .epaLdm x u v num, rest) := by
  rw [decodeShape_mkWord _ _ _ _ x.mode_ne.1]
  exact decodeEpa_mem h hsel u v num rest

theorem decode_epaReg {seg : Bool} {sel : BitVec 2} (hsel : sel = 0#2 ∨ sel = 2#2) (v : BitVec 3) (u : BitVec 2)
    (x y z t : BitVec 4) (rest : List Word) :
    decodeShape seg (mkWord 2#2 0x0F#6 (0#1 ++ v) (sel ++ u) :: mkNibs x y z t :: rest) =
      .ok (if sel.getLsbD 1 then .epaStr v u x y z t else .epaLdr v u x y z t, rest) := by
  have matches_template : epaMatches (mkWord 2#2 0x0F#6 (0#1 ++ v) (sel ++ u)) (mkNibs x y z t) = true := by
    have sel_ok : (sel == 0#2 || sel == 2#2) = true := by simpa using hsel
    rw [epaMatches, upper_mkWord, selector_mkWord, (register_template_mkWord ..).2, sel_ok]
    rfl
  rw [decodeShape_mkWord _ _ _ _ (by decide)]
  show decodeEpa seg _ _ = _
  simp only [decodeEpa, pWord, pBind, matches_template, fOp_mkWord, fMode_mkWord, if_true, ignored_mkWord,
    (selector_bits_mkWord ..).1, (register_template_mkWord ..).1, nib3_mkNibs, nib2_mkNibs, nib1_mkNibs, nib0_mkNibs,
    show (0x0F#6).getLsbD 0 = true from rfl]
  cases sel.getLsbD 1 <;> rfl

theorem decode_epaOp {seg : Bool} (a : BitVec 4) (u : BitVec 2) (w2 : Word) (rest : List Word) :
    decodeShape seg (mkWord 2#2 0x0E#6 a (1#2 ++ u) :: w2 :: rest) = .ok (.epaOp a u w2, rest) := by
  have matches_template : epaMatches (mkWord 2#2 0x0E#6 a (1#2 ++ u)) w2 = true := by
    rw [epaMatches, upper_mkWord, selector_mkWord]
    rfl
  rw [decodeShape_mkWord _ _ _ _ (by decide)]
  show decodeEpa seg _ _ = _
  simp only [decodeEpa, pWord, pBind, matches_template, fOp_mkWord, fA_mkWord, if_true, ignored_mkWord,
    (selector_bits_mkWord ..).2, show (0x0E#6).getLsbD 0 = false from rfl, show (1#2).getLsbD 0 = true from rfl,
    Bool.false_eq_true, if_false]

theorem decode_epaFlags {seg : Bool} {sel : BitVec 2} (hsel : sel = 0#2 ∨ sel = 2#2) (a : BitVec 4) (u : BitVec 2)
    (x z : BitVec 4) (rest : List Word) :
    decodeShape seg (mkWord 2#2 0x0E#6 a (sel ++ u) :: mkNibs x 0#4 z 0#4 :: rest) =
      .ok (if sel.getLsbD 1 then .epaStf a u x z else .epaLdf a u x z, rest) := by
  have fits : flagTemplate (mkNibs x 0#4 z 0#4) = true := by
    have second : (mkNibs x 0#4 z 0#4).extractLsb' 8 4 = 0#4 := nib2_mkNibs ..
    have last : (mkNibs x 0#4 z 0#4).extractLsb' 0 4 = 0#4 := nib0_mkNibs ..
    rw [flagTemplate, second, last]
    rfl
  have matches_template : epaMatches (mkWord 2#2 0x0E#6 a (sel ++ u)) (mkNibs x 0#4 z 0#4) = true := by
    rw [epaMatches, upper_mkWord, selector_mkWord, fits]
    rcases hsel with rfl | rfl <;> rfl
  have not_op : sel.getLsbD 0 = false := by rcases hsel with rfl | rfl <;> rfl
  rw [decodeShape_mkWord _ _ _ _ (by decide)]
  show decodeEpa seg _ _ = _
  simp only [decodeEpa, pWord, pBind, matches_template, fOp_mkWord, fA_mkWord, if_true, ignored_mkWord, not_op,
    (selector_bits_mkWord ..).1, (selector_bits_mkWord ..).2, nib3_mkNibs, nib1_mkNibs,
    show (0x0E#6).getLsbD 0 = false from rfl, Bool.false_eq_true, if_false]
  cases sel.getLsbD 1 <;> rfl

theorem slice_slice {w : Nat} (x : BitVec w) {start len k n : Nat} (h : k + n ≤ len) :
    (x.extractLsb' start len).extractLsb' k n = x.extractLsb' (start + k) n := by
  ext i hi
  have inside : k + i < len := by omega
  simp [inside, Nat.add_assoc]

/-- An extended upper byte leads to the extended parser. -/
theorem decodeShape_epaUpper {seg : Bool} {w : Word} (h : epaUpper w = true) (ws : List Word) :
    decodeShape seg (w :: ws) = decodeEpa seg w ws := by
  have mode : fMode w = (w.extractLsb' 8 8).extractLsb' 6 2 := by
    rw [slice_slice w (by decide)]
    rfl
  have opcode : fOp w = (w.extractLsb' 8 8).extractLsb' 0 6 := by
    rw [slice_slice w (by decide)]
    rfl
  unfold epaUpper at h
  split at h
  case h_7 => cases h
  all_goals
    rename_i upper
    rw [upper] at mode opcode
    rw [decodeShape, mode, opcode]
    rfl

theorem decode_epaOther {seg : Bool} {w : Word} {tail : EpaTail}
    (h : wellFormed seg (.epaOther w tail) = true) (rest : List Word) :
    decodeShape seg (w :: (tail.words ++ rest)) = .ok (.epaOther w tail, rest) := by
  obtain ⟨word, addr⟩ := tail
  have fields : (epaUpper w = true ∧ epaMatches w word = false) ∧ epaAddrWf seg w addr = true := by
    simpa [wellFormed] using h
  obtain ⟨⟨upper, no_template⟩, ha⟩ := fields
  rw [decodeShape_epaUpper upper]
  cases addr with
  | none =>
    have no_address : epaAddressed w = false := by simpa [epaAddrWf] using ha
    simp [decodeEpa, EpaTail.words, pWord, pBind, no_template, decodeEpaOther, no_address]
  | some a =>
    obtain ⟨addressed, hwf⟩ : epaAddressed w = true ∧ a.wf seg = true := by simpa [epaAddrWf] using ha
    simp [decodeEpa, EpaTail.words, pWord, pBind, no_template, decodeEpaOther, addressed, pAddr_words hwf, pMap]

/-! ### The compact formats (R123) -/

section
variable (g : BitVec 2)

/-- A compact word of a 4-bit field and a byte: LDB short and JR. -/
theorem decode_compact8 {seg : Bool} {d : BitVec 4} {v : BitVec 8} {i : Instr} (rest : List Word)
    (arm : ∀ w, w.extractLsb' 12 2 = g → nib2 w = d → w.extractLsb' 0 8 = v → decodeCompact w rest = .ok (i, rest)) :
    decodeShape seg ((3#2 ++ g ++ d ++ v) :: rest) = .ok (i, rest) := by
  have mode : fMode (3#2 ++ g ++ d ++ v) = 3#2 :=
    (BitVec.extractLsb'_append_eq_of_le (by decide)).trans
      ((BitVec.extractLsb'_append_eq_of_le (by decide)).trans BitVec.extractLsb'_append_eq_left)
  have kind : (3#2 ++ g ++ d ++ v).extractLsb' 12 2 = g :=
    (BitVec.extractLsb'_append_eq_of_le (by decide)).trans
      ((BitVec.extractLsb'_append_eq_of_le (by decide)).trans BitVec.extractLsb'_append_eq_right)
  have field : nib2 (3#2 ++ g ++ d ++ v) = d :=
    (BitVec.extractLsb'_append_eq_of_le (by decide)).trans BitVec.extractLsb'_append_eq_right
  rw [decodeShape, if_pos mode]
  exact arm _ kind field BitVec.extractLsb'_append_eq_right

/-- CALR: twelve bits of displacement. -/
theorem decode_compact12 {seg : Bool} {v : BitVec 12} {i : Instr} (rest : List Word)
    (arm : ∀ w, w.extractLsb' 12 2 = g → w.extractLsb' 0 12 = v → decodeCompact w rest = .ok (i, rest)) :
    decodeShape seg ((3#2 ++ g ++ v) :: rest) = .ok (i, rest) := by
  have mode : fMode (3#2 ++ g ++ v) = 3#2 :=
    (BitVec.extractLsb'_append_eq_of_le (by decide)).trans BitVec.extractLsb'_append_eq_left
  have kind : (3#2 ++ g ++ v).extractLsb' 12 2 = g :=
    (BitVec.extractLsb'_append_eq_of_le (by decide)).trans BitVec.extractLsb'_append_eq_right
  rw [decodeShape, if_pos mode]
  exact arm _ kind BitVec.extractLsb'_append_eq_right

/-- DJNZ and DBJNZ: a register, the bit that tells them apart, seven bits of displacement. -/
theorem decode_compact7 {seg : Bool} {r : BitVec 4} {t : BitVec 1} {v : BitVec 7} {i : Instr} (rest : List Word)
    (arm : ∀ w, w.extractLsb' 12 2 = g → nib2 w = r → w.getLsbD 7 = t.getLsbD 0 → w.extractLsb' 0 7 = v →
      decodeCompact w rest = .ok (i, rest)) :
    decodeShape seg ((3#2 ++ g ++ r ++ t ++ v) :: rest) = .ok (i, rest) := by
  have mode : fMode (3#2 ++ g ++ r ++ t ++ v) = 3#2 :=
    (BitVec.extractLsb'_append_eq_of_le (by decide)).trans
      ((BitVec.extractLsb'_append_eq_of_le (by decide)).trans
        ((BitVec.extractLsb'_append_eq_of_le (by decide)).trans BitVec.extractLsb'_append_eq_left))
  have kind : (3#2 ++ g ++ r ++ t ++ v).extractLsb' 12 2 = g :=
    (BitVec.extractLsb'_append_eq_of_le (by decide)).trans
      ((BitVec.extractLsb'_append_eq_of_le (by decide)).trans
        ((BitVec.extractLsb'_append_eq_of_le (by decide)).trans BitVec.extractLsb'_append_eq_right))
  have field : nib2 (3#2 ++ g ++ r ++ t ++ v) = r :=
    (BitVec.extractLsb'_append_eq_of_le (by decide)).trans
      ((BitVec.extractLsb'_append_eq_of_le (by decide)).trans BitVec.extractLsb'_append_eq_right)
  have tag : (3#2 ++ g ++ r ++ t ++ v).getLsbD 7 = t.getLsbD 0 :=
    (BitVec.getLsbD_append ..).trans (BitVec.getLsbD_append ..)
  rw [decodeShape, if_pos mode]
  exact arm _ kind field tag BitVec.extractLsb'_append_eq_right

end

end Sys2Proof
end

section
/-! Decoding an encoded instruction gives it back: every instruction is one use of the lemma of its format. -/

namespace Sys2Proof

/-- A source operand as PUSH writes it: register and memory forms in one format, the immediate in another. -/
def RM.toSrc : RM → Src 16
  | .r f => .r f
  | .mem m => .mem m

theorem setEnables_field (vn : BitVec 2) :
    ((0#2 ++ vn).getLsbD 3 = false ∧ (0#2 ++ vn).getLsbD 2 = false ∧ (0#2 ++ vn).extractLsb' 0 2 = vn) ∧
    ((1#2 ++ vn).getLsbD 3 = false ∧ (1#2 ++ vn).getLsbD 2 = true ∧ (1#2 ++ vn).extractLsb' 0 2 = vn) := by
  revert vn; decide

/-- The byte of SC is its fields A and B. -/
theorem sc_fields (v : BitVec 8) :
    (1#2 ++ 0x3F#6 ++ v : Word) = mkWord 1#2 0x3F#6 (v.extractLsb' 4 4) (v.extractLsb' 0 4) ∧
      v.extractLsb' 4 4 ++ v.extractLsb' 0 4 = v := by
  revert v; decide +kernel

/-- An arm that the register mode takes elsewhere. -/
theorem else_arm {c : Prop} [Decidable c] (hc : ¬ c) {p x y : Parse Instr} (h : p = if c then x else y) : p = y :=
  h.trans (if_neg hc)

theorem decodeShape_encode {seg : Bool} {i : Instr} (h : wellFormed seg i = true) (rest : List Word) :
    decodeShape seg (encode i ++ rest) = .ok (i, rest) := by
  cases i with
  -- a register or memory operand
  | clrb d | clr d | negb d | neg d | comb d | com d | testb d | test d | tsetb d | tset d =>
    exact decode_encRM (fun _ _ _ _ => rfl) (RM.memWf_of_wf h) rest
  | exb d x | ex d x => exact decode_encRM (fun _ _ _ _ => rfl) (RM.memWf_of_wf h) rest
  | incb x n => exact decode_encRM (mk := fun x => .incb x n) (fun _ _ _ _ => rfl) (RM.memWf_of_wf h) rest
  | inc x n => exact decode_encRM (mk := fun x => .inc x n) (fun _ _ _ _ => rfl) (RM.memWf_of_wf h) rest
  | decb x n => exact decode_encRM (mk := fun x => .decb x n) (fun _ _ _ _ => rfl) (RM.memWf_of_wf h) rest
  | dec x n => exact decode_encRM (mk := fun x => .dec x n) (fun _ _ _ _ => rfl) (RM.memWf_of_wf h) rest
  | testl d => exact decode_encRM (fun _ _ _ _ => rfl) (RM.memWf_of_wfPair h) rest
  -- a source operand and a register
  | addb d x | subb d x | orb d x | andb d x | xorb d x | cpb d x =>
    exact decode_encSrc imm8_roundtrip (fun _ _ _ _ => rfl) (Src.memWf_of_wf h) rest
  | add d x | sub d x | or d x | and d x | xor d x | cp d x =>
    exact decode_encSrc imm16_roundtrip (fun _ _ _ _ => rfl) (Src.memWf_of_wf h) rest
  | mult d x | div d x =>
    obtain ⟨_, hx⟩ := (Bool.and_eq_true ..).mp h
    exact decode_encSrc imm16_roundtrip (fun _ _ _ _ => rfl) (Src.memWf_of_wf hx) rest
  | addl d x | subl d x | cpl d x | multl d x | divl d x =>
    obtain ⟨_, hx⟩ := (Bool.and_eq_true ..).mp h
    exact decode_encSrc imm32_roundtrip (fun _ _ _ _ => rfl) (Src.memWf_of_wfPair hx) rest
  -- loads, stores and addresses
  | ldbLoad d x =>
    exact decode_encLdSrc imm8_roundtrip (fun _ _ _ _ => rfl) (fun _ _ _ _ hm => else_arm hm rfl) (LdSrc.memWf_of_wf h) rest
  | ldLoad d x =>
    exact decode_encLdSrc imm16_roundtrip (fun _ _ _ _ => rfl) (fun _ _ _ _ hm => else_arm hm rfl) (LdSrc.memWf_of_wf h) rest
  | ldlLoad d x =>
    obtain ⟨_, hx⟩ := (Bool.and_eq_true ..).mp h
    exact decode_encLdSrc imm32_roundtrip (fun _ _ _ _ => rfl) (fun _ _ _ _ hm => else_arm hm rfl)
      (LdSrc.memWf_of_wfPair hx) rest
  | ldbStore x f =>
    exact decode_encMemB (mk := fun x => .ldbStore x f) (fun _ _ _ _ hm => else_arm hm rfl) (fun _ _ _ _ hm => else_arm hm rfl) h rest
  | ldStore x f =>
    exact decode_encMemB (mk := fun x => .ldStore x f) (fun _ _ _ _ hm => else_arm hm rfl) (fun _ _ _ _ hm => else_arm hm rfl) h rest
  | ldlStore x f =>
    obtain ⟨hx, _⟩ := (Bool.and_eq_true ..).mp h
    exact decode_encMemB (mk := fun x => .ldlStore x f) (fun _ _ _ _ _ => rfl) (fun _ _ _ _ hm => else_arm hm rfl) hx rest
  | ldrbLoad d disp => exact decode_relative (mk := fun x => .ldbLoad d (.mem x)) (fun _ _ _ _ hm => else_arm hm rfl) disp rest
  | ldrLoad d disp => exact decode_relative (mk := fun x => .ldLoad d (.mem x)) (fun _ _ _ _ hm => else_arm hm rfl) disp rest
  | ldrlLoad d disp => exact decode_relative (mk := fun x => .ldlLoad d (.mem x)) (fun _ _ _ _ hm => else_arm hm rfl) disp rest
  | ldrbStore disp f =>
    exact decode_relative (mk := fun x => .ldbStore x f) (ra := fun d => .ldrbStore d f)
      (fun _ _ _ _ hm => else_arm hm rfl) disp rest
  | ldrStore disp f =>
    exact decode_relative (mk := fun x => .ldStore x f) (ra := fun d => .ldrStore d f)
      (fun _ _ _ _ hm => else_arm hm rfl) disp rest
  | ldrlStore disp f =>
    exact decode_relative (mk := fun x => .ldlStore x f) (ra := fun d => .ldrlStore d f)
      (fun _ _ _ _ hm => else_arm hm rfl) disp rest
  | ldbStoreImm x v => exact decode_encMem_imm imm8_roundtrip (fun _ _ _ _ hm => else_arm hm rfl) h v rest
  | cpbMemImm x v => exact decode_encMem_imm imm8_roundtrip (fun _ _ _ _ hm => else_arm hm rfl) h v rest
  | ldStoreImm x v =>
    exact decode_encMem_imm (enc := fun v => [v]) imm16_roundtrip (fun _ _ _ _ hm => else_arm hm rfl) h v rest
  | cpMemImm x v =>
    exact decode_encMem_imm (enc := fun v => [v]) imm16_roundtrip (fun _ _ _ _ hm => else_arm hm rfl) h v rest
  | lda d x =>
    obtain ⟨_, hx⟩ := (Bool.and_eq_true ..).mp h
    cases x with
    | da a =>
      show decodeShape seg (mkWord 1#2 0x36#6 0#4 d :: (a.words ++ rest)) = _
      rw [decodeShape_mkWord _ _ _ _ (by decide)]
      exact congrArg (pMap _) (pAddr_words hx rest)
    | x a i =>
      obtain ⟨ha, hi⟩ : a.wf seg = true ∧ i ≠ 0#4 := by simpa [EaSrc.wf, indexField] using hx
      show decodeShape seg (mkWord 1#2 0x36#6 i d :: (a.words ++ rest)) = _
      rw [decodeShape_mkWord _ _ _ _ (by decide)]
      exact (congrArg (pMap _) (pAddr_words ha rest)).trans (by simp [pMap, hi])
    | ba b disp =>
      have hb : b ≠ 0#4 := by simpa using ((Bool.and_eq_true ..).mp hx).1
      exact decode_twoWords (by decide) rest fun _ => congrArg (fun i => Except.ok (i, rest)) (if_neg hb)
    | bx b i =>
      show decodeShape seg (mkWord 1#2 0x34#6 b d :: indexWord i :: rest) = _
      rw [decodeShape_mkWord _ _ _ _ (by decide)]
      exact congrArg (pMap _) (pIndexWord_indexWord i rest)
  | ldmLoad d x n => exact decode_encLdm (mk := fun d x n => .ldmLoad d x n) (fun _ _ _ _ hm => else_arm hm rfl) h d n rest
  | ldmStore x f n => exact decode_encLdm (mk := fun f x n => .ldmStore x f n) (fun _ _ _ _ hm => else_arm hm rfl) h f n rest
  -- stacks
  | pop x sp =>
    obtain ⟨hx, _⟩ := (Bool.and_eq_true ..).mp h
    exact decode_encStack (mk := fun x => .pop x sp) (fun _ _ _ => rfl) (fun _ _ _ => rfl) (fun _ _ _ => rfl)
      (RM.memWf_of_wf hx) rest
  | popl x sp =>
    obtain ⟨hx, _⟩ := (Bool.and_eq_true ..).mp h
    exact decode_encStack (mk := fun x => .popl x sp) (fun _ _ _ => rfl) (fun _ _ _ => rfl) (fun _ _ _ => rfl)
      (RM.memWf_of_wfPair hx) rest
  | pushl sp x =>
    obtain ⟨_, hx⟩ := (Bool.and_eq_true ..).mp h
    exact decode_encStack (fun _ _ _ => rfl) (fun _ _ _ => rfl) (fun _ _ _ => rfl) (RM.memWf_of_wfPair hx) rest
  | push sp x =>
    obtain ⟨hsp, hx⟩ := (Bool.and_eq_true ..).mp h
    have stack (y : RM) (hy : y.memWf seg) :
        decodeShape seg (encStack 0x13#6 sp y ++ rest) = .ok (.push sp y.toSrc, rest) :=
      decode_encStack (mk := fun y => .push sp y.toSrc) (fun _ _ _ => rfl) (fun _ _ _ => rfl) (fun _ _ _ => rfl) hy rest
    cases x with
    | r f => exact stack (.r f) nofun
    | mem m => exact stack (.mem m) (RM.memWf_of_wf hx)
    | im v =>
      have sp_ne : sp ≠ 0#4 := by simpa using ((Bool.and_eq_true ..).mp hsp).1
      exact decode_twoWords (by decide) rest fun _ => if_pos ⟨rfl, sp_ne⟩
  -- jumps and calls
  | call x | ldps x => exact decode_encMem (fun _ _ _ _ _ => rfl) h rest
  | jp cc x => exact decode_encMem (fun _ _ _ _ hm => else_arm hm rfl) h rest
  | calr disp => exact decode_compact12 1#2 rest fun w kind payload => by simp only [decodeCompact, kind, payload]
  | ldbShort d v => exact decode_compact8 0#2 rest fun w kind field payload => by simp only [decodeCompact, kind, field, payload]
  | jr cc disp => exact decode_compact8 2#2 rest fun w kind field payload => by simp only [decodeCompact, kind, field, payload]
  | djnz r disp | dbjnz r disp =>
    exact decode_compact7 3#2 rest fun w kind field tag payload => by
      simp only [decodeCompact, kind, field, tag, payload]
      rfl
  | sc v =>
    obtain ⟨halves, joined⟩ := sc_fields v
    show decodeShape seg ((1#2 ++ 0x3F#6 ++ v : Word) :: rest) = _
    rw [halves, decodeShape_mkWord _ _ _ _ (by decide)]
    exact congrArg (fun v => Except.ok (Instr.sc v, rest)) joined
  -- bit manipulation
  | bitb x n => exact decode_static_bit (fun _ _ _ _ => rfl) (RM.memWf_of_wf ((Bool.and_eq_true ..).mp h).1) rest
  | resb x n => exact decode_static_bit (fun _ _ _ _ => rfl) (RM.memWf_of_wf ((Bool.and_eq_true ..).mp h).1) rest
  | setb x n => exact decode_static_bit (fun _ _ _ _ => rfl) (RM.memWf_of_wf ((Bool.and_eq_true ..).mp h).1) rest
  | bit x n | res x n | set x n => exact decode_static_bit (fun _ _ _ _ => rfl) (RM.memWf_of_wf h) rest
  | bitbDyn d f | bitDyn d f | resbDyn d f | resDyn d f | setbDyn d f | setDyn d f =>
    exact decode_encDyn (fun _ _ _ _ => rfl) d rest
  -- one word
  | ldk d v | adcb d f | adc d f | sbcb d f | sbc d f | dab d | extsb d | exts d | extsl d | iret | ret cc
  | tccb cc d | tcc cc d | rldb d f | rrdb d f | comflg n | resflg n | setflg n | nop | halt | ldctlbRead d
  | ldctlbWrite f | mbit | mreq d | mres | mset =>
    exact decode_oneWord (by decide) rest fun _ => rfl
  | rlb d two | rl d two | rlcb d two | rlc d two | rrb d two | rr d two | rrcb d two | rrc d two =>
    cases two <;> exact decode_oneWord (by decide) rest fun _ => rfl
  | ldctlRead d c => cases c <;> exact decode_oneWord (by decide) rest fun _ => rfl
  | ldctlWrite c f => cases c <;> exact decode_oneWord (by decide) rest fun _ => rfl
  | di vn =>
    obtain ⟨⟨high, tag, field⟩, _⟩ := setEnables_field vn
    refine decode_oneWord (by decide) rest fun w => ?_
    show (if (0#4 : BitVec 4) ≠ 0#4 ∨ (0#2 ++ vn).getLsbD 3 = true then _ else
      if (0#2 ++ vn).getLsbD 2 = true then _ else Except.ok (Instr.di ((0#2 ++ vn).extractLsb' 0 2), rest)) = _
    rw [high, tag, field]
    rfl
  | ei vn =>
    obtain ⟨_, high, tag, field⟩ := setEnables_field vn
    refine decode_oneWord (by decide) rest fun w => ?_
    show (if (0#4 : BitVec 4) ≠ 0#4 ∨ (1#2 ++ vn).getLsbD 3 = true then _ else
      if (1#2 ++ vn).getLsbD 2 = true then Except.ok (Instr.ei ((1#2 ++ vn).extractLsb' 0 2), rest) else _) = _
    rw [high, tag, field]
    rfl
  -- two words
  | ldar d disp => exact decode_twoWords (by decide) rest fun _ => rfl
  | inpb d p | inp d p | outb p d | out p d =>
    cases p with
    | da q => exact decode_twoWords (by decide) rest fun _ => rfl
    | ir f => exact decode_oneWord (by decide) rest fun _ => rfl
  | sinb d p | sin d p | soutb p d | sout p d => exact decode_twoWords (by decide) rest fun _ => rfl
  -- shifts
  | sdab d f | sda d f | sdal d f | sdlb d f | sdl d f | sdll d f =>
    exact decode_dynamicShift (fun _ _ => rfl) f rest
  | slab d c | sllb d c =>
    exact (decode_shift8 (fun _ _ => rfl) c rest).trans (congrArg (fun i => Except.ok (i, rest)) (leftCount_select h _ _))
  | srab d c | srlb d c =>
    exact (decode_shift8 (fun _ _ => rfl) c rest).trans (congrArg (fun i => Except.ok (i, rest)) (rightCount_select h _ _))
  | sla d c | sll d c =>
    exact (decode_shift16 (fun _ _ => rfl) c rest).trans (congrArg (fun i => Except.ok (i, rest)) (leftCount_select h _ _))
  | sra d c | srl d c =>
    exact (decode_shift16 (fun _ _ => rfl) c rest).trans (congrArg (fun i => Except.ok (i, rest)) (rightCount_select h _ _))
  | slal d c | slll d c =>
    exact (decode_shift16 (fun _ _ => rfl) c rest).trans
      (congrArg (fun i => Except.ok (i, rest)) (leftCount_select ((Bool.and_eq_true ..).mp h).2 _ _))
  | sral d c | srll d c =>
    exact (decode_shift16 (fun _ _ => rfl) c rest).trans
      (congrArg (fun i => Except.ok (i, rest)) (rightCount_select ((Bool.and_eq_true ..).mp h).2 _ _))
  -- block, string and block transfer forms
  | cpdb f cnt d cc | cpd f cnt d cc | cpdrb f cnt d cc | cpdr f cnt d cc | cpib f cnt d cc | cpi f cnt d cc
  | cpirb f cnt d cc | cpir f cnt d cc | cpsdb f cnt d cc | cpsd f cnt d cc | cpsdrb f cnt d cc
  | cpsdr f cnt d cc | cpsib f cnt d cc | cpsi f cnt d cc | cpsirb f cnt d cc | cpsir f cnt d cc =>
    exact decode_encBlock (by decide) f cnt d cc rest (fun _ _ => rfl) rfl
  | lddb f cnt d | ldd f cnt d | ldib f cnt d | ldi f cnt d | indb f cnt d | ind f cnt d | inib f cnt d
  | ini f cnt d | outdb f cnt d | outd f cnt d | outib f cnt d | outi f cnt d | sindb f cnt d | sind f cnt d
  | sinib f cnt d | sini f cnt d | soutdb f cnt d | soutd f cnt d | soutib f cnt d | souti f cnt d =>
    exact decode_encBlock (by decide) f cnt d 0x8#4 rest (fun _ _ => rfl) rfl
  | lddrb f cnt d | lddr f cnt d | ldirb f cnt d | ldir f cnt d | trdb f cnt d | trdrb f cnt d | trib f cnt d
  | trirb f cnt d | trtdb f cnt d | trtib f cnt d | indrb f cnt d | indr f cnt d | inirb f cnt d | inir f cnt d
  | otdrb f cnt d | otdr f cnt d | otirb f cnt d | otir f cnt d | sindrb f cnt d | sindr f cnt d
  | sinirb f cnt d | sinir f cnt d | sotdrb f cnt d | sotdr f cnt d | sotirb f cnt d | sotir f cnt d =>
    exact decode_encBlock (by decide) f cnt d 0x0#4 rest (fun _ _ => rfl) rfl
  | trtdrb f cnt d | trtirb f cnt d => exact decode_encBlock (by decide) f cnt d 0xE#4 rest (fun _ _ => rfl) rfl
  -- extended instructions
  | epaStm x u v n => exact decode_epaMem h (.inl rfl) u v n rest
  | epaLdm x u v n => exact decode_epaMem h (.inr rfl) u v n rest
  | epaLdr v u x d z n => exact decode_epaReg (.inl rfl) v u x d z n rest
  | epaStr v u x f z n => exact decode_epaReg (.inr rfl) v u x f z n rest
  | epaLdf a u x z => exact decode_epaFlags (.inl rfl) a u x z rest
  | epaStf a u x z => exact decode_epaFlags (.inr rfl) a u x z rest
  | epaOp a u w => exact decode_epaOp a u w rest
  | epaOther w tail => exact decode_epaOther h rest

/-- Settles O1: the shape is read back, and the check of the field values passes. -/
theorem decodeEncode : Obligations.DecodeEncode := by
  intro seg i rest h
  rw [decodeWords, decodeShape_encode h rest]
  exact if_pos h

end Sys2Proof
end

section
/-! What the decoder answers is as long as its encoding (30_encoding R121): each parser uses as many words as the
operand it answers has, and each arm of the decoder as many as the instruction. -/

namespace Sys2Proof

/-- After `k` words already read, the parser `p` of `ws` answers a value `len` long with the words it left over. -/
def Uses {α : Type} (k : Nat) (ws : List Word) (len : α → Nat) (p : Parse α) : Prop :=
  ∀ v rest, p = .ok (v, rest) → ∃ used, ws = used ++ rest ∧ used.length + k = len v

namespace Uses
variable {α β : Type} {k : Nat} {ws : List Word} {len : α → Nat} {len' : β → Nat}

theorem ok {v : α} (h : len v = k) : Uses k ws len (.ok (v, ws)) := by
  rintro v rest ⟨⟩
  exact ⟨[], rfl, by simp [h]⟩

theorem error {e : Reject} : Uses k ws len (.error e) := nofun

theorem word {v : α} {w : Word} (h : len v = k + 1) : Uses k (w :: ws) len (.ok (v, ws)) := by
  rintro v rest ⟨⟩
  exact ⟨[w], rfl, by simp [h, Nat.add_comm]⟩

theorem map {p : Parse α} {f : α → β} (h : Uses 0 ws len p) (hf : ∀ v, len' (f v) = len v + k) :
    Uses k ws len' (pMap f p) := by
  intro y rest hy
  match p, h, hy with
  | .ok (v, r), h, hy =>
    cases hy
    obtain ⟨used, split, length⟩ := h _ _ rfl
    exact ⟨used, split, by rw [hf, ← length, Nat.add_zero]⟩

theorem bind {p : Parse α} {f : α → List Word → Parse β} (h : Uses 0 ws len p)
    (hf : ∀ v r, Uses (k + len v) r len' (f v r)) : Uses k ws len' (pBind p f) := by
  intro y rest hy
  match p, h, hy with
  | .ok (v, r), h, hy =>
    obtain ⟨first, split, length⟩ := h v r rfl
    obtain ⟨second, split', length'⟩ := hf v r y rest hy
    exact ⟨first ++ second, by rw [split, split', List.append_assoc], by
      rw [List.length_append, ← length', ← length]; omega⟩

theorem ite {c : Prop} [Decidable c] {p q : Parse α} (hp : c → Uses k ws len p) (hq : ¬ c → Uses k ws len q) :
    Uses k ws len (if c then p else q) := by
  split
  case isTrue h => exact hp h
  case isFalse h => exact hq h

end Uses

/-! ### Operands -/

section
variable (ws : List Word)

theorem uses_pWord : Uses 0 ws (fun _ => 1) (pWord ws) := by
  cases ws with
  | nil => exact .error
  | cons w ws => exact .word rfl

theorem uses_pImm8 : Uses 0 ws (fun _ => 1) (pImm8 ws) := (uses_pWord ws).map fun _ => rfl

theorem uses_pImm32 : Uses 0 ws (fun _ => 2) (pImm32 ws) := by
  match ws with
  | [] => exact .error
  | [_] => exact .error
  | hi :: lo :: ws =>
    rintro v rest ⟨⟩
    exact ⟨[hi, lo], rfl, rfl⟩

theorem uses_pAddr (seg : Bool) : Uses 0 ws (fun a => a.words.length) (pAddr seg ws) := by
  cases ws with
  | nil => exact .error
  | cons w ws =>
    refine .ite (fun _ => .ite (fun _ => ?_) fun _ => .word rfl) fun _ => .word rfl
    match ws with
    | [] => exact .error
    | o :: ws =>
      rintro v rest ⟨⟩
      exact ⟨[w, o], rfl, rfl⟩

theorem uses_pDaX (seg : Bool) (f : RegField) : Uses 0 ws (fun x => x.words.length) (pDaX seg f ws) :=
  (uses_pAddr ws seg).map fun a => by split <;> rfl

theorem uses_pMem (seg : Bool) (m : BitVec 2) (f : RegField) : Uses 0 ws (fun x => x.words.length) (pMem seg m f ws) := by
  unfold pMem
  split
  · exact .ite (fun _ => .error) fun _ => .ok rfl
  · exact uses_pDaX ws seg f
  · exact .error

theorem uses_pRM (seg : Bool) (m : BitVec 2) (f : RegField) : Uses 0 ws (fun x => x.words.length) (pRM seg m f ws) := by
  unfold pRM
  split
  · exact .ok rfl
  · exact (uses_pMem ws seg m f).map fun _ => rfl

end

/-- The words after the first of an instruction with this source operand, whose immediate is `k` words long. -/
def Src.extra {n : Nat} (k : Nat) : Src n → Nat
  | .r _ => 0
  | .im _ => k
  | .mem m => m.words.length

def MemB.extra : MemB → Nat
  | .mem m => m.words.length
  | .ba _ _ => 1
  | .bx _ _ => 1

def LdSrc.extra {n : Nat} (k : Nat) : LdSrc n → Nat
  | .r _ => 0
  | .im _ => k
  | .mem m => m.extra

section
variable {n : Nat} {imm : List Word → Parse (BitVec n)} {k : Nat} (himm : ∀ ws, Uses 0 ws (fun _ => k) (imm ws))
  (seg : Bool) (m : BitVec 2) (f : RegField) (ws : List Word)
include himm

theorem uses_pSrc : Uses 0 ws (Src.extra k) (pSrc imm seg m f ws) := by
  unfold pSrc
  split
  · exact .ok rfl
  · exact .ite (fun _ => (himm ws).map fun _ => rfl) fun _ => .ok rfl
  · exact (uses_pMem ws seg m f).map fun _ => rfl

theorem uses_pLdSrc : Uses 0 ws (LdSrc.extra k) (pLdSrc imm seg m f ws) := by
  unfold pLdSrc
  split
  · exact .ok rfl
  · exact .ite (fun _ => (himm ws).map fun _ => rfl) fun _ => .ok rfl
  · exact (uses_pMem ws seg m f).map fun _ => rfl

end

section
variable (ws : List Word)

theorem uses_pIndexWord : Uses 0 ws (fun _ => 1) (pIndexWord ws) :=
  (uses_pWord ws).bind fun _ _ => .ite (fun _ => .ok rfl) fun _ => .error

theorem uses_pNibs : Uses 0 ws (fun _ => 1) (pNibs ws) :=
  (uses_pWord ws).bind fun _ _ => .ite (fun _ => .ok rfl) fun _ => .error

theorem uses_pLdmWord : Uses 0 ws (fun _ => 1) (pLdmWord ws) :=
  (uses_pNibs ws).bind fun _ _ => .ite (fun _ => .ok rfl) fun _ => .error

end

/-! ### Instruction formats

`UsesInstr` is `Uses` with the first word read. The premise on `mk` is the length of the encoding, which computes. -/

/-- The parser of the words after the first answers an instruction as long as its encoding. -/
abbrev UsesInstr (ws : List Word) (p : Parse Instr) : Prop := Uses 1 ws lengthWords p

section
variable {seg : Bool} {m : BitVec 2} {a b : BitVec 4} {ws : List Word}

theorem usesInstr_rm {mk : RM → Instr} (h : ∀ x, lengthWords (mk x) = x.words.length + 1) :
    UsesInstr ws (pMap mk (pRM seg m a ws)) := (uses_pRM ws seg m a).map h

theorem usesInstr_mem {mk : Mem → Instr} (h : ∀ x, lengthWords (mk x) = x.words.length + 1) :
    UsesInstr ws (pMap mk (pMem seg m a ws)) := (uses_pMem ws seg m a).map h

theorem usesInstr_daX {mk : Mem → Instr} (h : ∀ x, lengthWords (mk x) = x.words.length + 1) :
    UsesInstr ws (pMap mk (pDaX seg b ws)) := (uses_pDaX ws seg b).map h

/-- A memory operand followed by an immediate word. -/
theorem encMem_snoc_length (op : BitVec 6) (x : Mem) (f : BitVec 4) (w : Word) :
    (encMem op x f ++ [w]).length = 1 + (1 + x.words.length) := by
  simp only [encMem, List.length_append, List.length_cons, List.length_nil]
  omega

theorem usesInstr_mem_imm {n : Nat} {imm : List Word → Parse (BitVec n)} (himm : ∀ ws, Uses 0 ws (fun _ => 1) (imm ws))
    {mk : Mem → BitVec n → Instr} (h : ∀ x v, lengthWords (mk x v) = 1 + (1 + x.words.length)) :
    UsesInstr ws (pBind (pMem seg m a ws) fun x r => pMap (mk x) (imm r)) :=
  (uses_pMem ws seg m a).bind fun x r => (himm r).map fun v => h x v

/-- The length of an encoded source operand, whatever the instruction. -/
theorem encSrc_length {n k : Nat} {enc : BitVec n → List Word} (henc : ∀ v, (enc v).length = k) (op : BitVec 6)
    (x : Src n) (f : BitVec 4) : (encSrc enc op x f).length = x.extra k + 1 := by
  cases x with
  | r g => rfl
  | im v => exact congrArg (· + 1) (henc v)
  | mem m => rfl

theorem encLdSrc_length {n k : Nat} {enc : BitVec n → List Word} (henc : ∀ v, (enc v).length = k) (op opB : BitVec 6)
    (x : LdSrc n) (f : BitVec 4) : (encLdSrc enc op opB x f).length = x.extra k + 1 := by
  cases x with
  | r g => rfl
  | im v => exact congrArg (· + 1) (henc v)
  | mem m => cases m <;> rfl

theorem usesInstr_src8 {mk : Src 8 → Instr} {op : BitVec 6} {f : BitVec 4}
    (h : ∀ x, encode (mk x) = encSrc imm8Words op x f) : UsesInstr ws (pMap mk (pSrc pImm8 seg m a ws)) :=
  (uses_pSrc uses_pImm8 seg m a ws).map fun x =>
    (congrArg List.length (h x)).trans (encSrc_length (fun v => by rfl) op x f)

theorem usesInstr_src16 {mk : Src 16 → Instr} {op : BitVec 6} {f : BitVec 4}
    (h : ∀ x, encode (mk x) = encSrc (fun v => [v]) op x f) : UsesInstr ws (pMap mk (pSrc pWord seg m a ws)) :=
  (uses_pSrc uses_pWord seg m a ws).map fun x =>
    (congrArg List.length (h x)).trans (encSrc_length (fun v => by rfl) op x f)

theorem usesInstr_src32 {mk : Src 32 → Instr} {op : BitVec 6} {f : BitVec 4}
    (h : ∀ x, encode (mk x) = encSrc imm32Words op x f) : UsesInstr ws (pMap mk (pSrc pImm32 seg m a ws)) :=
  (uses_pSrc uses_pImm32 seg m a ws).map fun x =>
    (congrArg List.length (h x)).trans (encSrc_length (fun v => by rfl) op x f)

/-- BA, BX and RA. -/
theorem usesInstr_base {mk : MemB → Instr} {ra : Word → Instr} (hmk : ∀ b d, lengthWords (mk (.ba b d)) = 2)
    (hbx : ∀ b i, lengthWords (mk (.bx b i)) = 2) (hra : ∀ d, lengthWords (ra d) = 2) :
    UsesInstr ws (pBase mk ra m a ws) := by
  unfold pBase
  split
  · refine (uses_pWord ws).map fun d => ?_
    split
    · exact hra d
    · exact hmk a d
  · exact (uses_pIndexWord ws).map fun i => hbx a i
  · exact .error

theorem usesInstr_bit {stat : RM → BitVec 4 → Instr} {dyn : RegField → RegField → Instr}
    (hs : ∀ x n, lengthWords (stat x n) = x.words.length + 1) (hd : ∀ d f, lengthWords (dyn d f) = 2) :
    UsesInstr ws (pBit stat dyn seg m a b ws) :=
  .ite (fun _ => (uses_pIndexWord ws).map fun d => hd d b) fun _ => usesInstr_rm fun x => hs x b

theorem usesInstr_block {single rep : RegField → RegField → RegField → Instr}
    (hs : ∀ f c d, lengthWords (single f c d) = 2) (hr : ∀ f c d, lengthWords (rep f c d) = 2) :
    UsesInstr ws (pBlock single rep a ws) := by
  refine (uses_pNibs ws).bind fun v r => ?_
  split
  · exact .ok (hs ..)
  · exact .ok (hr ..)
  · exact .error

theorem usesInstr_compare {mk : RegField → RegField → RegField → BitVec 4 → Instr}
    (h : ∀ f c d cc, lengthWords (mk f c d cc) = 2) : UsesInstr ws (pCompare mk a ws) :=
  (uses_pNibs ws).bind fun _ _ => .ok (h ..)

theorem usesInstr_translate {mk : RegField → RegField → RegField → Instr} {low : BitVec 4}
    (h : ∀ f c d, lengthWords (mk f c d) = 2) : UsesInstr ws (pTranslate mk low a ws) :=
  (uses_pNibs ws).bind fun _ _ => .ite (fun _ => .ok (h ..)) fun _ => .error

theorem usesInstr_port {mk : Word → Instr} (h : ∀ p, lengthWords (mk p) = 2) : UsesInstr ws (pPort mk ws) :=
  (uses_pWord ws).map h

theorem usesInstr_dynShift {mk : RegField → RegField → Instr} (h : ∀ d f, lengthWords (mk d f) = 2) :
    UsesInstr ws (pDynShift mk a ws) := (uses_pIndexWord ws).map fun f => h a f

theorem usesInstr_shift8 {left right : RegField → BitVec 8 → Instr} (hl : ∀ d c, lengthWords (left d c) = 2)
    (hr : ∀ d c, lengthWords (right d c) = 2) : UsesInstr ws (pShift8 left right a ws) :=
  (uses_pImm8 ws).map fun c => by
    split
    · exact hr a c
    · exact hl a c

theorem usesInstr_shift16 {left right : RegField → BitVec 16 → Instr} (hl : ∀ d c, lengthWords (left d c) = 2)
    (hr : ∀ d c, lengthWords (right d c) = 2) : UsesInstr ws (pShift16 left right a ws) :=
  (uses_pWord ws).map fun c => by
    split
    · exact hr a c
    · exact hl a c

theorem usesInstr_ldSrc {n k : Nat} {imm : List Word → Parse (BitVec n)} (himm : ∀ ws, Uses 0 ws (fun _ => k) (imm ws))
    {enc : BitVec n → List Word} (henc : ∀ v, (enc v).length = k) {mk : LdSrc n → Instr} {op opB : BitVec 6} {f : BitVec 4}
    (h : ∀ x, encode (mk x) = encLdSrc enc op opB x f) : UsesInstr ws (pMap mk (pLdSrc imm seg m a ws)) :=
  (uses_pLdSrc himm seg m a ws).map fun x => (congrArg List.length (h x)).trans (encLdSrc_length henc op opB x f)

end

/-! ### The tables -/

section
variable (seg : Bool) (m : BitVec 2) (a b : BitVec 4) (ws : List Word)

theorem uses_decodeTable1b : UsesInstr ws (decodeTable1b seg m a b ws) := by
  unfold decodeTable1b
  split
  case h_2 => exact .ite (fun _ => .ok rfl) fun _ => usesInstr_mem_imm uses_pImm8 fun x _ => encMem_snoc_length _ x _ _
  case h_5 => exact .ite (fun _ => .error) fun _ => usesInstr_mem_imm uses_pImm8 fun x _ => encMem_snoc_length _ x _ _
  case h_8 => exact .ite (fun _ => .ok rfl) fun _ => .error
  case h_9 => exact .error
  all_goals exact usesInstr_rm fun _ => rfl

theorem uses_decodeTable1w : UsesInstr ws (decodeTable1w seg m a b ws) := by
  unfold decodeTable1w
  split
  case h_2 => exact .ite (fun _ => .ok rfl) fun _ => usesInstr_mem_imm uses_pWord fun x _ => encMem_snoc_length _ x _ _
  case h_4 => exact .ite (fun _ => .ok rfl) fun _ => .error
  case h_6 => exact .ite (fun _ => .ok rfl) fun _ => usesInstr_mem_imm uses_pWord fun x _ => encMem_snoc_length _ x _ _
  case h_8 => exact .ite (fun _ => .ok rfl) fun _ => .error
  case h_10 => exact .ite (fun _ => (uses_pWord ws).map fun _ => rfl) fun _ => .error
  case h_11 => exact .error
  all_goals exact usesInstr_rm fun _ => rfl

theorem uses_decodeTable2 : UsesInstr ws (decodeTable2 seg m a b ws) := by
  unfold decodeTable2
  split
  case h_2 => exact usesInstr_rm fun _ => rfl
  case h_4 => exact .error
  all_goals
    exact .ite (fun _ => .error) fun _ => (uses_pLdmWord ws).bind fun v r => (uses_pMem r seg m a).map fun _ => rfl

theorem uses_decodeTable3b : UsesInstr ws (decodeTable3b a b ws) := by
  unfold decodeTable3b
  split
  case h_5 | h_6 | h_7 | h_8 => exact usesInstr_port fun _ => rfl
  case h_13 => exact .error
  all_goals exact usesInstr_block (fun _ _ _ => rfl) fun _ _ _ => rfl

theorem uses_decodeTable3w : UsesInstr ws (decodeTable3w a b ws) := by
  unfold decodeTable3w
  split
  case h_5 | h_6 | h_7 | h_8 => exact usesInstr_port fun _ => rfl
  case h_13 => exact .error
  all_goals exact usesInstr_block (fun _ _ _ => rfl) fun _ _ _ => rfl

theorem uses_decodeTable4b : UsesInstr ws (decodeTable4b a b ws) := by
  unfold decodeTable4b
  split
  case h_2 | h_8 => exact usesInstr_shift8 (fun _ _ => rfl) fun _ _ => rfl
  case h_4 | h_10 => exact usesInstr_dynShift fun _ _ => rfl
  case h_13 => exact .error
  all_goals exact .ok rfl

theorem uses_decodeTable4w : UsesInstr ws (decodeTable4w a b ws) := by
  unfold decodeTable4w
  split
  case h_2 | h_6 | h_10 | h_14 => exact usesInstr_shift16 (fun _ _ => rfl) fun _ _ => rfl
  case h_4 | h_8 | h_12 | h_16 => exact usesInstr_dynShift fun _ _ => rfl
  all_goals exact .ok rfl

theorem uses_decodeTable5 : UsesInstr ws (decodeTable5 a b ws) := by
  unfold decodeTable5
  split
  case h_9 => exact .error
  all_goals exact usesInstr_translate fun _ _ _ => rfl

theorem uses_decodeTable6b : UsesInstr ws (decodeTable6b a b ws) := by
  unfold decodeTable6b
  split
  case h_2 | h_7 => exact usesInstr_block (fun _ _ _ => rfl) fun _ _ _ => rfl
  case h_11 => exact .error
  all_goals exact usesInstr_compare fun _ _ _ _ => rfl

theorem uses_decodeTable6w : UsesInstr ws (decodeTable6w a b ws) := by
  unfold decodeTable6w
  split
  case h_2 | h_7 => exact usesInstr_block (fun _ _ _ => rfl) fun _ _ _ => rfl
  case h_11 => exact .error
  all_goals exact usesInstr_compare fun _ _ _ _ => rfl

theorem uses_decodeTable7 : UsesInstr ws (decodeTable7 a b ws) := by
  unfold decodeTable7
  split
  case h_5 => exact .ok rfl
  case h_6 => exact .error
  all_goals exact .ite (fun _ => .ok rfl) fun _ => .error

theorem uses_decodeLdctl : UsesInstr ws (decodeLdctl a b ws) := by
  unfold decodeLdctl
  split
  case h_13 => exact .error
  all_goals exact .ok rfl

theorem uses_decodeEpa (w : Word) : UsesInstr ws (decodeEpa seg w ws) := by
  refine (uses_pWord ws).bind fun w2 r => .ite (fun _ => .ite (fun _ => .ite (fun _ => ?_) fun _ => ?_) fun _ => ?_) fun _ => ?_
  · exact .ite (fun _ => .ok rfl) fun _ => .ok rfl
  · exact (uses_pMem r seg _ _).map fun x => by split <;> rfl
  · exact .ite (fun _ => .ok rfl) fun _ => .ite (fun _ => .ok rfl) fun _ => .ok rfl
  · exact .ite (fun _ => (uses_pAddr r seg).map fun _ => rfl) fun _ => .ok rfl

theorem uses_decodeF1 (w : Word) (op : BitVec 6) : UsesInstr ws (decodeF1 seg w m op a b ws) := by
  unfold decodeF1
  split
  -- two-operand instructions
  case h_1 | h_3 | h_5 | h_7 | h_9 | h_11 => exact usesInstr_src8 fun _ => rfl
  case h_2 | h_4 | h_6 | h_8 | h_10 | h_12 | h_26 | h_28 => exact usesInstr_src16 fun _ => rfl
  case h_17 | h_19 | h_23 | h_25 | h_27 => exact usesInstr_src32 fun _ => rfl
  -- tables of their own
  case h_13 => exact uses_decodeTable1b seg m a b ws
  case h_14 => exact uses_decodeTable1w seg m a b ws
  case h_15 | h_16 => exact uses_decodeEpa seg ws w
  case h_29 => exact uses_decodeTable2 seg m a b ws
  case h_57 => exact .ite (fun _ => uses_decodeTable5 a b ws) fun _ => .error
  -- stacks
  case h_18 | h_20 | h_22 | h_24 =>
    split
    · exact .ok rfl
    · exact usesInstr_daX fun _ => rfl
    · exact .ok rfl
  -- loads and stores
  case h_21 => exact usesInstr_ldSrc uses_pImm32 (fun _ => by rfl) fun _ => rfl
  case h_33 => exact usesInstr_ldSrc uses_pImm8 (fun _ => by rfl) fun _ => rfl
  case h_34 => exact usesInstr_ldSrc uses_pWord (fun _ => by rfl) fun _ => rfl
  case h_30 => exact usesInstr_mem fun _ => rfl
  case h_47 | h_48 => exact .ite (fun _ => .ok rfl) fun _ => usesInstr_mem fun _ => rfl
  case h_49 =>
    exact .ite (fun _ => .ite (fun _ => .ok rfl) fun _ => .error) fun _ =>
      usesInstr_base (fun _ _ => rfl) (fun _ _ => rfl) fun _ => rfl
  case h_50 =>
    refine .ite (fun _ => ?_) fun _ => usesInstr_base (fun _ _ => rfl) (fun _ _ => rfl) fun _ => rfl
    split
    case h_4 => exact .error
    all_goals exact .ok rfl
  case h_51 =>
    exact .ite (fun _ => uses_decodeTable4b a b ws) fun _ => usesInstr_base (fun _ _ => rfl) (fun _ _ => rfl) fun _ => rfl
  case h_52 =>
    exact .ite (fun _ => uses_decodeTable4w a b ws) fun _ => usesInstr_base (fun _ _ => rfl) (fun _ _ => rfl) fun _ => rfl
  case h_53 =>
    split
    · refine (uses_pWord ws).map fun d => ?_
      split <;> rfl
    · exact (uses_pIndexWord ws).map fun _ => rfl
    · exact .ok rfl
  case h_54 | h_56 =>
    exact .ite (fun _ => .ok rfl) fun _ => usesInstr_base (fun _ _ => rfl) (fun _ _ => rfl) fun _ => rfl
  case h_55 =>
    split
    · exact .error
    · refine (uses_pAddr ws seg).map fun d => ?_
      split <;> rfl
    · exact .ok rfl
  -- jumps, calls, LDPS
  case h_31 =>
    exact .ite (fun _ => .ite (fun _ => .ok rfl) fun _ => .error) fun _ => usesInstr_mem fun _ => rfl
  case h_32 | h_58 =>
    exact .ite (fun _ => usesInstr_mem fun _ => rfl) fun _ => .ite (fun _ => .error) fun _ => .error
  -- bits, one operand
  case h_35 | h_36 | h_37 | h_38 | h_39 | h_40 => exact usesInstr_bit (fun _ _ => rfl) fun _ _ => rfl
  case h_41 | h_42 | h_43 | h_44 | h_45 | h_46 => exact usesInstr_rm fun _ => rfl
  -- upper bytes with a meaning of their own in each mode
  case h_59 =>
    split
    · exact uses_decodeTable3b a b ws
    · exact .ite (fun _ => .ok rfl) fun _ => .error
    · exact uses_decodeTable6b a b ws
  case h_60 =>
    split
    · exact uses_decodeTable3w a b ws
    · exact uses_decodeTable7 a b ws
    · exact uses_decodeTable6w a b ws
  case h_61 =>
    split
    · exact .ok rfl
    · exact .ite (fun _ => .error) fun _ => .ite (fun _ => .ok rfl) fun _ => .ok rfl
    · exact .ok rfl
  case h_62 =>
    split
    · exact .ok rfl
    · exact uses_decodeLdctl a b ws
    · exact .ok rfl
  case h_63 =>
    split
    · exact .ok rfl
    · exact .error
    · exact .ok rfl
  case h_64 =>
    split
    · exact .ok rfl
    · exact .ok rfl
    · exact .error

theorem uses_decodeCompact (w : Word) : UsesInstr ws (decodeCompact w ws) := by
  unfold decodeCompact
  split
  case h_4 => exact .ite (fun _ => .ok rfl) fun _ => .ok rfl
  all_goals exact .ok rfl

theorem uses_decodeShape : Uses 0 ws lengthWords (decodeShape seg ws) := by
  cases ws with
  | nil => exact .error
  | cons w ws =>
    intro i rest h
    have tail : UsesInstr ws (decodeShape seg (w :: ws)) :=
      .ite (fun _ => uses_decodeCompact ws w) fun _ => uses_decodeF1 seg _ _ _ ws w _
    obtain ⟨used, split, length⟩ := tail i rest h
    exact ⟨w :: used, by rw [split, List.cons_append], length⟩

end

/-- Settles O2: the check of the decoder is `wellFormed`, and every parser uses the words of what it answers. -/
theorem decodeWellFormed : Obligations.DecodeWellFormed := by
  intro seg ws rest i h
  unfold decodeWords at h
  split at h
  case h_1 => cases h
  case h_2 i' rest' shape =>
    split at h
    case isFalse => cases h
    case isTrue accepted =>
      cases h
      exact ⟨accepted, uses_decodeShape seg ws i rest shape⟩

end Sys2Proof
end

section
/-! The boundary and the step (60_exceptions R630), the reset event, the Program Status Area and the image of the FCW. -/

namespace Sys2Proof.Machine

/-! ### Words that decode -/

/-- Settles O3: the decoder computes each of them. -/
theorem decodeExamples : Obligations.DecodeExamples :=
  ⟨rfl, rfl, rfl, rfl, rfl, rfl, rfl, rfl, rfl, rfl, rfl⟩

/-! ### The boundary -/

theorem arrive_cfg (s : State) (a : Arrival) : (s.arrive a).cfg = s.cfg := by
  cases a with
  | segtrap => cases h : s.cfg.variant <;> simp [State.arrive, h]
  | reset | nmi | vi b | nvi b => rfl

theorem arrive_mem (s : State) (a : Arrival) : (s.arrive a).mem = s.mem := by
  cases a with
  | segtrap => cases h : s.cfg.variant <;> simp [State.arrive, h]
  | reset | nmi | vi b | nvi b => rfl

@[simp] theorem latch_cfg (s : State) : s.latch.cfg = s.cfg := by
  unfold State.latch
  split
  · rfl
  · exact arrive_cfg _ _

@[simp] theorem latch_mem (s : State) : s.latch.mem = s.mem := by
  unfold State.latch
  split
  · rfl
  · exact arrive_mem _ _

/-- The step by the event of its boundary. -/
theorem step_eq_of_event (s : State) : step s = match s.latch.boundaryEvent with
    | .reset => .next s.latch.resetEvent
    | .nmi => finish s.latch.takeNmi
    | .segmentTrap => finish s.latch.takeSegmentTrap
    | .vi => finish s.latch.takeVi
    | .nvi => finish s.latch.takeNvi
    | .halted => .next s.latch
    | .run => runInstr s.latch := by
  unfold step
  rfl

theorem step_run {s : State} (h : s.latch.boundaryEvent = .run) : step s = runInstr s.latch := by
  rw [step_eq_of_event, h]

/-- An instruction at an even PC: refused by the decoder, by the parameter for port 0, or run past its words. -/
theorem runInstr_even {s : State} (h : s.pcOff.getLsbD 0 = false) : runInstr s =
    match decodeWords s.segmented s.wordsAtPc with
    | .error r => .refused (.reserved r)
    | .ok (i, _) =>
      if s.reservedPort i then .refused (.reserved .illFormedOperands)
      else exec i (s.setPcOff (s.pcOff + BitVec.ofNat 16 (2 * lengthWords i))) := by
  have even : s.pcAddr.even = true := beq_iff_eq.mpr h
  have fetched : s.fetch = .ok s.wordsAtPc := if_pos even
  rw [runInstr, fetched]
  rfl

/-- Settles O4. -/
theorem stepRunsInstruction : Obligations.StepRunsInstruction := by
  intro s run even
  refine ⟨fun i rest decoded => ?_, fun r decoded => ?_⟩
  · have ran : step s = if s.latch.reservedPort i then .refused (.reserved .illFormedOperands)
        else exec i (s.latch.setPcOff (s.latch.pcOff + BitVec.ofNat 16 (2 * lengthWords i))) := by
      rw [step_run run, runInstr_even even, decoded]
    have reserved := reservedPort_iff s.latch i
    rw [latch_cfg] at reserved
    exact ⟨fun free => ran.trans (if_neg fun h => free (reserved.mp h)), fun h => ran.trans (if_pos (reserved.mpr h))⟩
  · rw [step_run run, runInstr_even even, decoded]

/-- An event is the entry with the identifier of the environment and the PC of the boundary. -/
theorem takeEvent_eq {u v : State} (idIn : v.idIn = u.idIn) (seg : v.pcSeg = u.pcSeg) (off : v.pcOff = u.pcOff)
    (e : Word → Event) : ∃ id, (∀ w rest, u.idIn = w :: rest → id = w) ∧
      v.takeEvent e = ((v.setIdIn u.idIn.tail).took 1).trapEntry (e id) id u.pcSeg u.pcOff := by
  refine ⟨answer u.idIn (v.fresh 0 16), fun w rest h => ?_, ?_⟩
  · rw [h]
    rfl
  · rw [← idIn, ← seg, ← off]
    rfl

/-- Settles O5: the tests of `boundaryEvent` in their order, each event an entry. -/
theorem boundaryPriority : Obligations.BoundaryPriority := by
  intro s u takes
  have taken {ev : BoundaryEvent} {v : State} {e : Word → Event} (idIn : v.idIn = u.idIn) (seg : v.pcSeg = u.pcSeg)
      (off : v.pcOff = u.pcOff) (event : step s = finish (v.takeEvent e)) : takes v e := by
    obtain ⟨id, given, entry⟩ := takeEvent_eq idIn seg off e
    exact ⟨id, given, by rw [event, entry]⟩
  refine ⟨fun reset => ?_, fun reset nmi => ?_, fun reset nmi trap z1 => ?_, fun reset nmi trap => ⟨fun vi vie => ?_,
    fun no_vi => ⟨fun nvi nvie => ?_, fun no_nvi halted => ?_⟩⟩⟩
  · have event : u.boundaryEvent = .reset := by simp [State.boundaryEvent, reset]
    rw [step_eq_of_event, event]
  · have event : u.boundaryEvent = .nmi := by simp [State.boundaryEvent, reset, nmi]
    exact taken (ev := .nmi) rfl rfl rfl (by rw [step_eq_of_event, event]; rfl)
  · have event : u.boundaryEvent = .segmentTrap := by simp [State.boundaryEvent, reset, nmi, trap, z1]
    exact taken (ev := .segmentTrap) rfl rfl rfl (by rw [step_eq_of_event, event]; rfl)
  · have event : u.boundaryEvent = .vi := by simp [State.boundaryEvent, reset, nmi, trap, vi, vie]
    exact taken (ev := .vi) rfl rfl rfl (by rw [step_eq_of_event, event]; rfl)
  all_goals have vi_off : (u.viRequest && u.fcw.vie) = false := by rcases no_vi with h | h <;> simp [h]
  · have event : u.boundaryEvent = .nvi := by simp [State.boundaryEvent, reset, nmi, trap, vi_off, nvi, nvie]
    exact taken (ev := .nvi) rfl rfl rfl (by rw [step_eq_of_event, event]; rfl)
  · have nvi_off : (u.nviRequest && u.fcw.nvie) = false := by rcases no_nvi with h | h <;> simp [h]
    have event : u.boundaryEvent = .halted := by
      simp [State.boundaryEvent, reset, nmi, trap, vi_off, nvi_off, halted]
    rw [step_eq_of_event, event]

/-! ### Reset -/

/-- Settles O6. -/
theorem resetRequest : Obligations.ResetRequest := by
  intro s reset
  have event : s.latch.boundaryEvent = .reset := by simp [State.boundaryEvent, reset]
  have after : step s = .next s.latch.resetEvent := by rw [step_eq_of_event, event]
  have cfg : s.latch.cfg = s.cfg := latch_cfg s
  have mem : s.latch.mem = s.mem := latch_mem s
  generalize s.latch = u at after cfg mem
  rw [← cfg, ← mem]
  refine ⟨u.resetEvent, after, ?_⟩
  unfold State.resetEvent
  exact ⟨rfl, rfl, fun z1 => by simp only [z1], rfl, rfl, rfl, rfl, rfl, rfl, rfl⟩

/-- Settles O7. -/
theorem resetInvariant : Obligations.ResetInvariant := ⟨reset_wf, fun _ => ⟨rfl, rfl, rfl, rfl⟩⟩

/-! ### The Program Status Area -/

/-- Settles O11: the offsets of `Event.fcwOffset` and `Event.pcOffset`, written out for each event. -/
theorem programStatusChoice : Obligations.ProgramStatusChoice := by
  intro s word status2 status1
  refine ⟨fun z2 => ?_, fun z1 => ?_⟩
  · have base : s.psaBase = { seg := 0#7, off := s.psapOff ++ 0#8 } := by rw [State.psaBase, z2]
    have loads (e : Event) : s.loadStatus e = status2 (e.fcwOffset .z8002) (e.pcOffset .z8002) := by
      rw [loadStatus_z8002 z2, State.loadFcw, z2]
      rfl
    exact ⟨base, loads _, loads _, loads _, loads _, loads _, fun v => loads (.vi v)⟩
  · have base : s.psaBase = { seg := s.psapSeg, off := s.psapOff ++ 0#8 } := by rw [State.psaBase, z1]
    have loads (e : Event) : s.loadStatus e = status1 (e.fcwOffset .z8001) (e.pcOffset .z8001) := by
      rw [loadStatus_z8001 z1, State.loadFcw, z1]
      rfl
    exact ⟨base, loads _, loads _, loads _, loads _, loads _, loads _, fun v => loads (.vi v)⟩

/-! ### The image of the FCW -/

theorem Flags.toByte_bits (f : Flags) :
    f.toByte.getLsbD 7 = f.c ∧ f.toByte.getLsbD 6 = f.z ∧ f.toByte.getLsbD 5 = f.s ∧ f.toByte.getLsbD 4 = f.pv ∧
      f.toByte.getLsbD 3 = f.d ∧ f.toByte.getLsbD 2 = f.h ∧ f.toByte.extractLsb' 0 2 = 0#2 := by
  obtain ⟨c, z, s, pv, d, h⟩ := f
  revert c z s pv d h
  decide

/-- The reserved bits of the FLAGS byte are dropped (10_state R42). -/
theorem Flags.toByte_ofByte (b : Byte) : (Flags.ofByte b).toByte = b &&& 0xFC#8 := by
  revert b
  decide +kernel

/-- The control bits of an image as a number of 16 bits over the FLAGS byte. -/
def controlImage (a b c d e : Bool) : Byte :=
  BitVec.ofBool a ++ BitVec.ofBool b ++ BitVec.ofBool c ++ BitVec.ofBool d ++ BitVec.ofBool e ++ 0#3

theorem controlImage_bits (a b c d e : Bool) : let y := controlImage a b c d e
    y.getLsbD 7 = a ∧ y.getLsbD 6 = b ∧ y.getLsbD 5 = c ∧ y.getLsbD 4 = d ∧ y.getLsbD 3 = e ∧
      y.extractLsb' 0 3 = 0#3 := by
  revert a b c d e
  decide

theorem Fcw.toWord_eq (v : Variant) (x : Fcw) : x.toWord v =
    controlImage (v == .z8001 && x.seg) x.sn x.epa x.vie x.nvie ++ x.flags.toByte := rfl

theorem high_bit (a b : Byte) (j : Nat) : (a ++ b).getLsbD (8 + j) = a.getLsbD j := by
  refine (BitVec.getLsbD_append ..).trans ?_
  simp

theorem Fcw.toWord_bits (v : Variant) (x : Fcw) :
    (x.toWord v).getLsbD 15 = (decide (v = .z8001) && x.seg) ∧ (x.toWord v).getLsbD 14 = x.sn ∧
      (x.toWord v).getLsbD 13 = x.epa ∧ (x.toWord v).getLsbD 12 = x.vie ∧ (x.toWord v).getLsbD 11 = x.nvie ∧
      (x.toWord v).extractLsb' 8 3 = 0#3 ∧ (x.toWord v).extractLsb' 0 8 = x.flags.toByte := by
  rw [Fcw.toWord_eq]
  obtain ⟨seg, sn, epa, vie, nvie, reserved⟩ := controlImage_bits (v == .z8001 && x.seg) x.sn x.epa x.vie x.nvie
  refine ⟨(high_bit _ _ 7).trans seg, (high_bit _ _ 6).trans sn, (high_bit _ _ 5).trans epa, (high_bit _ _ 4).trans vie,
    (high_bit _ _ 3).trans nvie, ?_, append_low _ _⟩
  exact (BitVec.extractLsb'_append_eq_of_le (by decide)).trans reserved

/-- The control bits loaded from an image and stored again (10_state R42). -/
theorem controlImage_of_bits (z1 : Bool) (b : Byte) :
    controlImage (z1 && b.getLsbD 7) (b.getLsbD 6) (b.getLsbD 5) (b.getLsbD 4) (b.getLsbD 3) =
      controlImage z1 true true true true &&& b := by
  revert z1 b
  decide +kernel

theorem Fcw.toWord_ofWord (v : Variant) (w : Word) : (Fcw.ofWord v w).toWord v =
    (controlImage (v == .z8001) true true true true ++ 0xFC#8) &&& w := by
  have high (j : Nat) (h : j < 8) : w.getLsbD (8 + j) = (w.extractLsb' 8 8).getLsbD j := by
    simp [h]
  have control : controlImage (v == .z8001 && w.getLsbD 15) (w.getLsbD 14) (w.getLsbD 13) (w.getLsbD 12)
      (w.getLsbD 11) = controlImage (v == .z8001) true true true true &&& w.extractLsb' 8 8 := by
    rw [← controlImage_of_bits, high 7 (by decide), high 6 (by decide), high 5 (by decide), high 4 (by decide),
      high 3 (by decide)]
  calc (Fcw.ofWord v w).toWord v
      = (controlImage (v == .z8001) true true true true &&& w.extractLsb' 8 8) ++ (w.extractLsb' 0 8 &&& 0xFC#8) := by
        rw [Fcw.toWord_eq, ← control, ← Flags.toByte_ofByte]
        cases v <;> rfl
    _ = (controlImage (v == .z8001) true true true true ++ 0xFC#8) &&& (w.extractLsb' 8 8 ++ w.extractLsb' 0 8) := by
        rw [BitVec.and_comm (w.extractLsb' 0 8)]
        exact BitVec.and_append.symm
    _ = _ := by rw [halves_eta]

/-- Settles O21: the places by computation, the round trip by `Fcw.toWord_ofWord`. -/
theorem fcwImage : Obligations.FcwImage := by
  intro v w x b f
  refine ⟨?_, ?_, ⟨?_, rfl, rfl, rfl, rfl, rfl⟩, Fcw.toWord_bits v x, ⟨rfl, rfl, rfl, rfl, rfl, rfl⟩, Flags.toByte_bits f⟩
  · exact (Fcw.toWord_ofWord .z8001 w).trans (BitVec.and_comm _ _)
  · exact (Fcw.toWord_ofWord .z8002 w).trans (BitVec.and_comm _ _)
  · cases v <;> rfl

end Sys2Proof.Machine
end

section
/-! What every instruction that is neither privileged nor a trap can do to the state (10_state R22, R41, 60_exceptions
R641, R642), and what keeps the invariant. -/

namespace Sys2Proof.Machine

/-! ### Registers of the normal bank -/

/-- Normal mode names no register of the system bank (10_state R22). -/
theorem systemSlot_normal (v : Variant) (f : RegField) : systemSlot v (regSlot v false f) = false := by
  cases v <;> (revert f; decide +kernel)

/-- What an instruction of normal operation leaves: the control byte, the segment number of a nonsegmented PC, the
system bank in normal mode, and all but the EPU's queues of what lies outside registers and memory; the canonical form
of memory stays. -/
structure Ordinary (s t : State) : Prop where
  mem : s.mem.wf = true → t.mem.wf = true
  control : { t.fcw with flags := s.fcw.flags } = s.fcw
  pcSeg : s.segmented = false → t.pcSeg = s.pcSeg
  bank : s.fcw.sn = false → ∀ k, systemSlot s.cfg.variant k = true → t.regs.get k = s.regs.get k
  others : t.others = ((s.setEpuIn t.epuIn).setEpuLog t.epuLog).others

namespace Ordinary
variable {s t : State}

theorem refl (s : State) : Ordinary s s := ⟨id, rfl, fun _ => rfl, fun _ _ _ => rfl, rfl⟩

theorem cfg (h : Ordinary s t) : t.cfg = s.cfg := (congrArg State.cfg h.others :)
theorem sn (h : Ordinary s t) : t.fcw.sn = s.fcw.sn := (congrArg Fcw.sn h.control :)
theorem seg (h : Ordinary s t) : t.fcw.seg = s.fcw.seg := (congrArg Fcw.seg h.control :)

theorem segmented (h : Ordinary s t) : t.segmented = s.segmented := by
  unfold State.segmented
  rw [h.cfg, h.seg]

theorem trans {u : State} (h : Ordinary s t) (h' : Ordinary t u) : Ordinary s u where
  mem w := h'.mem (h.mem w)
  control := by
    have eq := congrArg (fun x : Fcw => { x with flags := s.fcw.flags }) h'.control
    exact eq.trans h.control
  pcSeg w := (h'.pcSeg (h.segmented.trans w)).trans (h.pcSeg w)
  bank w k hk := (h'.bank (h.sn.trans w) k (by rw [h.cfg]; exact hk)).trans (h.bank w k hk)
  others := by
    have eq := congrArg (fun x => (x.setEpuIn u.epuIn).setEpuLog u.epuLog) h.others
    exact h'.others.trans eq

theorem setRegs (h : Ordinary s t) {v : Vector Word 18}
    (hv : s.fcw.sn = false → ∀ k, systemSlot s.cfg.variant k = true → v.get k = t.regs.get k) : Ordinary s (t.setRegs v) :=
  ⟨h.mem, h.control, h.pcSeg, fun w k hk => (hv w k hk).trans (h.bank w k hk), h.others⟩

theorem writeW (h : Ordinary s t) (f : RegField) (v : Word) : Ordinary s (t.writeW f v) := by
  refine h.setRegs fun normal k hk => ?_
  have normalSlot : systemSlot s.cfg.variant (t.slot f) = false := by
    rw [State.slot, h.cfg, h.sn, normal]
    exact systemSlot_normal _ _
  have ne : k ≠ t.slot f := by
    rintro rfl
    rw [normalSlot] at hk
    cases hk
  exact (vector_get_set _ _ _ _).trans (if_neg ne)

theorem writeB (h : Ordinary s t) (f : RegField) (v : Byte) : Ordinary s (t.writeB f v) := h.writeW _ _
theorem writeL (h : Ordinary s t) (f : RegField) (v : Long) : Ordinary s (t.writeL f v) := (h.writeW _ _).writeW _ _
theorem writeQ (h : Ordinary s t) (f : RegField) (v : Quad) : Ordinary s (t.writeQ f v) := (h.writeL _ _).writeL _ _
theorem stepPointer (h : Ordinary s t) (f : RegField) (k : Word) : Ordinary s (t.stepPointer f k) := h.writeW _ _

theorem writeByte (h : Ordinary s t) (a : Address) (v : Byte) : Ordinary s (t.writeByte a v) :=
  ⟨fun w => writeByte_wf _ _ _ (h.mem w), h.control, h.pcSeg, h.bank, h.others⟩

theorem pokeWord (h : Ordinary s t) (a : Address) (v : Word) : Ordinary s (t.pokeWord a v) :=
  (h.writeByte _ _).writeByte _ _
theorem pokeLong (h : Ordinary s t) (a : Address) (v : Long) : Ordinary s (t.pokeLong a v) :=
  (h.pokeWord _ _).pokeWord _ _

theorem setFlags (h : Ordinary s t) (f : Flags) : Ordinary s (t.setFlags f) :=
  ⟨h.mem, h.control, h.pcSeg, h.bank, h.others⟩
theorem took (h : Ordinary s t) (k : Nat) : Ordinary s (t.took k) := ⟨h.mem, h.control, h.pcSeg, h.bank, h.others⟩
theorem setPcOff (h : Ordinary s t) (v : Word) : Ordinary s (t.setPcOff v) :=
  ⟨h.mem, h.control, h.pcSeg, h.bank, h.others⟩

theorem setPc (h : Ordinary s t) (g : BitVec 7) (v : Word) (hs : s.segmented = true) : Ordinary s (t.setPc g v) :=
  ⟨h.mem, h.control, fun w => Bool.noConfusion (hs.symm.trans w), h.bank, h.others⟩

theorem jumpTo (h : Ordinary s t) (a : Address) : Ordinary s (t.jumpTo a) := by
  unfold State.jumpTo
  split
  · next hs => exact h.setPc _ _ (h.segmented.symm.trans hs)
  · exact h.setPcOff _

theorem setEpuIn (h : Ordinary s t) (v : List Word) : Ordinary s (t.setEpuIn v) :=
  ⟨h.mem, h.control, h.pcSeg, h.bank, congrArg (State.setEpuIn · v) h.others⟩
theorem epuWrite (h : Ordinary s t) (e : EpuEvent) : Ordinary s (t.epuWrite e) :=
  ⟨h.mem, h.control, h.pcSeg, h.bank, congrArg (State.setEpuLog · (t.epuLog ++ [e])) h.others⟩

theorem epuRead (h : Ordinary s t) : Ordinary s t.epuRead.2 := by
  unfold State.epuRead
  dsimp only
  split
  · exact (h.setEpuIn _).took 1
  · exact h.took 1

theorem stepBlock (h : Ordinary s t) (ptrs : List RegField) (k : Word) (cnt : RegField) :
    Ordinary s (t.stepBlock ptrs k cnt) := by
  unfold State.stepBlock
  refine Ordinary.writeW ?_ _ _
  induction ptrs generalizing t with
  | nil => exact h
  | cons p ps ih => exact ih (h.stepPointer p k)

theorem again (h : Ordinary s t) (done : Bool) : Ordinary s (t.again done) := by
  cases done
  · exact h.setPcOff _
  · exact h

theorem freeWords (h : Ordinary s t) (fs : List RegField) : Ordinary s (freeWords fs t) := by
  induction fs generalizing t with
  | nil => exact h
  | cons f fs ih => exact ih ((h.writeW _ _).took 1)

/-- The invariant of `State.Inv` is kept. -/
theorem inv (h : Ordinary s t) (inv : s.Inv) : t.Inv := by
  refine ⟨h.mem inv.1, fun z2 => ?_⟩
  obtain ⟨seg, pcSeg, psap, trap⟩ := inv.2 (h.cfg ▸ z2)
  have nonsegmented : s.segmented = false := by rw [State.segmented, seg, Bool.and_false]
  exact ⟨h.seg.trans seg, (h.pcSeg nonsegmented).trans pcSeg, (congrArg State.psapSeg h.others).trans psap,
    (congrArg State.segtrapRequest h.others).trans trap⟩

end Ordinary

/-! ### Meanings with an answer -/

/-- Whatever next state the meaning `x` answers meets `P`. -/
def Answers {α : Type} (P : α → Prop) (x : Exec α) : Prop := ∀ t, x = .ok t → P t

namespace Answers
variable {α β : Type} {P : α → Prop} {Q : β → Prop}

theorem ok {t : α} (h : P t) : Answers P (.ok t) := by
  rintro u ⟨⟩
  exact h

theorem error {e : Stop} : Answers P (.error e) := nofun

theorem bind {x : Exec β} {f : β → Exec α} (hx : Answers Q x) (hf : ∀ b, Q b → Answers P (f b)) :
    Answers P (x >>= f) := by
  intro t ht
  obtain ⟨b, hb, hfb⟩ := Exec.bind_ok.mp ht
  exact hf b (hx b hb) t hfb

/-- A first part of which nothing need be known. -/
theorem after {x : Exec β} {f : β → Exec α} (hf : ∀ b, Answers P (f b)) : Answers P (x >>= f) :=
  bind (Q := fun _ => True) (fun _ _ => trivial) fun b _ => hf b

theorem ite {c : Prop} [Decidable c] {x y : Exec α} (hx : Answers P x) (hy : Answers P y) :
    Answers P (if c then x else y) := by
  split
  · exact hx
  · exact hy

theorem finish {P : State → Prop} {x : Exec State} (h : Answers P x) {t : State} (ht : finish x = .next t) : P t :=
  h t (finish_next.mp ht)

end Answers

end Sys2Proof.Machine
end

section
/-! Every instruction that is neither privileged nor extended nor SC is ordinary; the bodies of the others keep the
invariant. -/

namespace Sys2Proof.Machine

/-! ### Shared operations -/

namespace Ordinary
variable {s t : State}

theorem writeWord (h : Ordinary s t) (a : Address) (v : Word) : Answers (Ordinary s) (t.writeWord a v) :=
  .ite (.ok (h.pokeWord a v)) .error
theorem writeLong (h : Ordinary s t) (a : Address) (v : Long) : Answers (Ordinary s) (t.writeLong a v) :=
  .ite (.ok (h.pokeLong a v)) .error

theorem putB (h : Ordinary s t) (d : RM) (v : Byte) : Answers (Ordinary s) (t.putB d v) := by
  cases d with
  | r f => exact .ok (h.writeB f v)
  | mem m => exact .ok (h.writeByte _ v)

theorem putW (h : Ordinary s t) (d : RM) (v : Word) : Answers (Ordinary s) (t.putW d v) := by
  cases d with
  | r f => exact .ok (h.writeW f v)
  | mem m => exact h.writeWord _ v

theorem pushWord (h : Ordinary s t) (sp : RegField) (v : Word) : Answers (Ordinary s) (t.pushWord sp v) :=
  (h.stepPointer sp _).writeWord _ v
theorem pushLong (h : Ordinary s t) (sp : RegField) (v : Long) : Answers (Ordinary s) (t.pushLong sp v) :=
  (h.stepPointer sp _).writeLong _ v
theorem popWord (h : Ordinary s t) (sp : RegField) : Answers (fun p => Ordinary s p.2) (t.popWord sp) :=
  .after fun _ => .ok (h.stepPointer sp _)
theorem popLong (h : Ordinary s t) (sp : RegField) : Answers (fun p => Ordinary s p.2) (t.popLong sp) :=
  .after fun _ => .ok (h.stepPointer sp _)

theorem pushPc (s : State) : Answers (Ordinary s) s.pushPc := .ite ((refl s).pushLong _ _) ((refl s).pushWord _ _)

theorem popPc (s : State) : Answers (Ordinary s) s.popPc := by
  unfold State.popPc
  split
  · next hs => exact .bind ((refl s).popLong _) fun _ h => .ok (h.setPc _ _ hs)
  · exact .bind ((refl s).popWord _) fun _ h => .ok (h.setPcOff _)

theorem twoOpB (s : State) (op : Alu 8) (d : RegField) (src : Src 8) : Answers (Ordinary s) (s.twoOpB op d src) :=
  .after fun _ => .ok (((refl s).writeB d _).setFlags _)
theorem twoOpW (s : State) (op : Alu 16) (d : RegField) (src : Src 16) : Answers (Ordinary s) (s.twoOpW op d src) :=
  .after fun _ => .ok (((refl s).writeW d _).setFlags _)
theorem twoOpL (s : State) (op : Alu 32) (d : RegField) (src : Src 32) : Answers (Ordinary s) (s.twoOpL op d src) :=
  .after fun _ => .ok (((refl s).writeL d _).setFlags _)
theorem oneOpB (s : State) (op : Alu1 8) (d : RM) : Answers (Ordinary s) (s.oneOpB op d) :=
  .after fun _ => .bind ((refl s).putB d _) fun _ h => .ok (h.setFlags _)
theorem oneOpW (s : State) (op : Alu1 16) (d : RM) : Answers (Ordinary s) (s.oneOpW op d) :=
  .after fun _ => .bind ((refl s).putW d _) fun _ h => .ok (h.setFlags _)
theorem modifyB (s : State) (op : Byte → Byte) (d : RM) : Answers (Ordinary s) (modifyB op d s) :=
  .after fun _ => (refl s).putB d _
theorem modifyW (s : State) (op : Word → Word) (d : RM) : Answers (Ordinary s) (modifyW op d s) :=
  .after fun _ => (refl s).putW d _

theorem decimalAdjust (s : State) (d : RegField) : Ordinary s (decimalAdjust d s) := by
  unfold Machine.decimalAdjust
  dsimp only
  split
  · exact ((refl s).writeB _ _).setFlags _
  · exact (((refl s).writeB _ _).setFlags _).took 4

theorem divideWord (s : State) (d : RegField) (v : Word) : Ordinary s (divideWord d v s) := by
  unfold Machine.divideWord
  dsimp only
  split
  · exact (refl s).setFlags _
  · exact ((refl s).writeL _ _).setFlags _
  · exact ((refl s).writeL _ _).setFlags _
  · exact (((refl s).writeL _ _).setFlags _).took 2

theorem divideLong (s : State) (d : RegField) (v : Long) : Ordinary s (divideLong d v s) := by
  unfold Machine.divideLong
  dsimp only
  split
  · exact (refl s).setFlags _
  · exact ((refl s).writeQ _ _).setFlags _
  · exact ((refl s).writeQ _ _).setFlags _
  · exact (((refl s).writeQ _ _).setFlags _).took 2

theorem rotateB (s : State) (st : Step1 8) (d : RegField) (two : Bool) : Ordinary s (rotateB st d two s) :=
  ((refl s).writeB d _).setFlags _
theorem rotateW (s : State) (st : Step1 16) (d : RegField) (two : Bool) : Ordinary s (rotateW st d two s) :=
  ((refl s).writeW d _).setFlags _
theorem shiftB (s : State) (arith : Bool) (d : RegField) (k : Int) : Ordinary s (shiftB arith d k s) :=
  (((refl s).writeB d _).setFlags _).took 5
theorem shiftW (s : State) (arith : Bool) (d : RegField) (k : Int) : Ordinary s (shiftW arith d k s) :=
  (((refl s).writeW d _).setFlags _).took 5
theorem shiftL (s : State) (arith : Bool) (d : RegField) (k : Int) : Ordinary s (shiftL arith d k s) :=
  (((refl s).writeL d _).setFlags _).took 5

theorem rotateDigits (s : State) (link src : RegField) (a b : Byte) : Ordinary s (rotateDigits link src a b s) := by
  unfold Machine.rotateDigits
  dsimp only
  split
  · exact (((refl s).writeB _ _).setFlags _).took 3
  · exact ((((refl s).writeB _ _).writeB _ _).setFlags _).took 1

theorem loadAddress (h : Ordinary s t) (d : RegField) (a : Address) (hi : BitVec 1) (mid : BitVec 8) :
    Ordinary s (loadAddress d a hi mid t) := by
  unfold Machine.loadAddress
  split
  · exact h.writeL _ _
  · exact h.writeW _ _

theorem loadMultiple (h : Ordinary s t) (n : Nat) (f : RegField) (a : Address) :
    Answers (Ordinary s) (loadMultiple n f a t) := by
  induction n generalizing t f a with
  | zero => exact .ok h
  | succ n ih => exact .after fun _ => ih (h.writeW _ _) _ _

theorem storeMultiple (h : Ordinary s t) (n : Nat) (f : RegField) (a : Address) :
    Answers (Ordinary s) (storeMultiple n f a t) := by
  induction n generalizing t f a with
  | zero => exact .ok h
  | succ n ih => exact .bind (h.writeWord _ _) fun _ h' => ih h' _ _

theorem pop (s : State) (dst : RM) (sp : RegField) {t : State} (ht : exec (.pop dst sp) s = .next t) : Ordinary s t := by
  refine Answers.finish (.after fun v => ?_) ht
  cases dst with
  | r f => exact .ite (.ok ((refl s).freeWords _)) (.ok (((refl s).stepPointer _ _).writeW _ _))
  | mem m => exact .ite (.ok ((refl s).freeWords _)) (((refl s).stepPointer _ _).writeWord _ _)

theorem popl (s : State) (dst : RM) (sp : RegField) {t : State} (ht : exec (.popl dst sp) s = .next t) : Ordinary s t := by
  refine Answers.finish (.after fun v => ?_) ht
  cases dst with
  | r f => exact .ite (.ok (((refl s).writeL _ _).freeWords _)) (.ok (((refl s).stepPointer _ _).writeL _ _))
  | mem m => exact .ite (.ok ((refl s).freeWords _)) (((refl s).stepPointer _ _).writeLong _ _)

theorem push (s : State) (sp : RegField) (src : Src 16) {t : State} (ht : exec (.push sp src) s = .next t) :
    Ordinary s t := by
  refine Answers.finish (.after fun v => ?_) ht
  cases src with
  | r f => exact .ite (((refl s).took 1).pushWord _ _) ((refl s).pushWord _ _)
  | im v | mem m => exact (refl s).pushWord _ _

theorem pushl (s : State) (sp : RegField) (src : RM) {t : State} (ht : exec (.pushl sp src) s = .next t) :
    Ordinary s t := by
  refine Answers.finish (.after fun v => ?_) ht
  cases src with
  | r f | mem m => exact .ite (((refl s).took 1).pushLong _ _) ((refl s).pushLong _ _)

/-! ### Iterations -/

theorem once {x : Exec (State × Bool)} (h : Answers (fun p => Ordinary s p.1) x) : Answers (Ordinary s) (once x) :=
  .bind h fun _ hp => .ok hp

theorem repeated {x : Exec (State × Bool)} (h : Answers (fun p => Ordinary s p.1) x) :
    Answers (Ordinary s) (repeated x) :=
  .bind h fun _ hp => .ok (hp.again _)

theorem storeB (h : Ordinary s t) (a : Address) (v : Byte) : Answers (Ordinary s) (storeB t a v) := .ok (h.writeByte a v)

variable {n : Nat}

theorem searchStep (s : State) (get : State → Address → Exec (BitVec n)) (v : BitVec n) (home : RegField) (k : Word)
    (f cnt : RegField) (cc : BitVec 4) : Answers (fun p => Ordinary s p.1) (searchStep get v home k f cnt cc s) :=
  .after fun _ => .after fun _ => .ok ((((refl s).stepBlock _ _ _).setFlags _).took 2)

theorem compareStep (s : State) (get : State → Address → Exec (BitVec n)) (k : Word) (f cnt d : RegField)
    (cc : BitVec 4) : Answers (fun p => Ordinary s p.1) (compareStep get k f cnt d cc s) :=
  .after fun _ => .after fun _ => .after fun _ => .ok (((refl s).stepBlock _ _ _).setFlags _)

theorem moveStep (s : State) (rep : Bool) (get : State → Address → Exec (BitVec n))
    {store : State → Address → BitVec n → Exec State} (hst : ∀ t a v, Ordinary s t → Answers (Ordinary s) (store t a v))
    (k : Word) (f cnt d : RegField) : Answers (fun p => Ordinary s p.1) (moveStep rep get store k f cnt d s) :=
  .after fun _ => .after fun _ => .after fun _ => .bind (hst _ _ _ (refl s)) fun _ h =>
    .ok (((h.stepBlock _ _ _).setFlags _).took 1)

theorem translateStep (s : State) (rep : Bool) (k : Word) (d cnt f : RegField) :
    Answers (fun p => Ordinary s p.1) (translateStep rep k d cnt f s) :=
  .after fun _ => .after fun _ =>
    .ok ((((((refl s).writeByte _ _).stepBlock _ _ _).writeB _ _).setFlags _).took 2)

theorem translateTestStep (s : State) (k : Word) (d cnt f : RegField) :
    Answers (fun p => Ordinary s p.1) (translateTestStep k d cnt f s) :=
  .after fun _ => .ok ((((refl s).stepBlock _ _ _).writeB _ _).setFlags _)

/-- An input differs from an ordinary step by the device's answer and its event only. -/
theorem inputStep (s : State) (rep : Bool) (space : IoSpace)
    {store : State → Address → BitVec n → Exec State}
    (hst : ∀ s t a v, Ordinary s t → Answers (Ordinary s) (store t a v)) (k : Word) (f cnt d : RegField) :
    Answers (fun p => Ordinary (s.ioRead space (n == 16) (s.readW f)).2 p.1)
      (inputStep rep space store k f cnt d s) :=
  .after fun _ => .after fun _ => .bind (hst _ _ _ _ (refl _)) fun _ h => .ok (((h.stepBlock _ _ _).setFlags _).took 1)

theorem outputStep (s : State) (space : IoSpace) (get : State → Address → Exec (BitVec n)) (k : Word)
    (f cnt d : RegField) :
    Answers (fun p => ∃ v, Ordinary (s.ioWrite space (n == 16) (s.readW d) v) p.1)
      (outputStep space get k f cnt d s) :=
  .after fun _ => .after fun v => .ok ⟨v.setWidth 16, (((refl _).stepBlock _ _ _).setFlags _).took 1⟩

end Ordinary

/-! ### Every instruction outside the three groups -/

theorem ordinary_compareOp {n : Nat} (s : State) (a b : BitVec n) : Ordinary s (s.compareOp a b) :=
  (Ordinary.refl s).setFlags _

/-- An instruction that is neither privileged nor extended nor SC is ordinary. -/
theorem exec_ordinary {i : Instr} {s t : State} (hp : isPrivileged i = false) (he : isExtended i = false)
    (hs : ∀ v, i ≠ .sc v) (ht : exec i s = .next t) : Ordinary s t := by
  have r := Ordinary.refl s
  cases i with
  | clrb d => exact (r.putB d _).finish ht
  | clr d => exact (r.putW d _).finish ht
  | exb d src => exact Answers.finish (.after fun _ => .bind (r.putB src _) fun _ h => .ok (h.writeB d _)) ht
  | ex d src => exact Answers.finish (.after fun _ => .bind (r.putW src _) fun _ h => .ok (h.writeW d _)) ht
  | ldbLoad d src => exact Answers.finish (.after fun _ => .ok (r.writeB d _)) ht
  | ldLoad d src | ldrLoad d src => exact Answers.finish (.after fun _ => .ok (r.writeW d _)) ht
  | ldlLoad d src | ldrlLoad d src => exact Answers.finish (.after fun _ => .ok (r.writeL d _)) ht
  | ldbStore dst f | ldbStoreImm dst f | ldrbStore dst f => exact Answers.finish (.ok (r.writeByte _ _)) ht
  | ldStore dst f | ldStoreImm dst f | ldrStore dst f => exact (r.writeWord _ _).finish ht
  | ldlStore dst f | ldrlStore dst f => exact (r.writeLong _ _).finish ht
  | ldbShort d v | ldrbLoad d v | ldctlbRead d => exact Answers.finish (.ok (r.writeB d _)) ht
  | ldk d v => exact Answers.finish (.ok (r.writeW d _)) ht
  | lda d src => exact Answers.finish (.ok ((r.loadAddress d _ _ _).took 2)) ht
  | ldar d disp => exact Answers.finish (.ok (r.loadAddress d _ _ _)) ht
  | ldmLoad d src num => exact (r.loadMultiple _ _ _).finish ht
  | ldmStore dst f num => exact (r.storeMultiple _ _ _).finish ht
  | pop dst sp => exact Ordinary.pop s dst sp ht
  | popl dst sp => exact Ordinary.popl s dst sp ht
  | push sp src => exact Ordinary.push s sp src ht
  | pushl sp src => exact Ordinary.pushl s sp src ht
  | addb d src | subb d src | andb d src | orb d src | xorb d src => exact (Ordinary.twoOpB s _ d src).finish ht
  | add d src | sub d src | and d src | or d src | xor d src => exact (Ordinary.twoOpW s _ d src).finish ht
  | adcb d f => exact (Ordinary.twoOpB s adcAluB d (.r f)).finish ht
  | sbcb d f => exact (Ordinary.twoOpB s sbcAluB d (.r f)).finish ht
  | adc d f => exact (Ordinary.twoOpW s adcAlu d (.r f)).finish ht
  | sbc d f => exact (Ordinary.twoOpW s sbcAlu d (.r f)).finish ht
  | addl d src | subl d src => exact (Ordinary.twoOpL s _ d _).finish ht
  | cpb d src | cp d src | cpl d src => exact Answers.finish (.after fun _ => .ok (ordinary_compareOp s _ _)) ht
  | cpbMemImm m v => exact Answers.finish (.after (x := s.memB m) fun a => .ok (ordinary_compareOp s a v)) ht
  | cpMemImm m v => exact Answers.finish (.after (x := s.memW m) fun a => .ok (ordinary_compareOp s a v)) ht
  | incb d num | decb d num => exact (Ordinary.oneOpB s _ d).finish ht
  | negb d | comb d | tsetb d => exact (Ordinary.oneOpB s _ d).finish ht
  | inc d num | dec d num => exact (Ordinary.oneOpW s _ d).finish ht
  | neg d | com d | tset d => exact (Ordinary.oneOpW s _ d).finish ht
  | dab d => exact Answers.finish (.ok (Ordinary.decimalAdjust s d)) ht
  | extsb d => exact Answers.finish (.ok (r.writeW d _)) ht
  | exts d => exact Answers.finish (.ok (r.writeL d _)) ht
  | extsl d => exact Answers.finish (.ok (r.writeQ d _)) ht
  | mult d src => exact Answers.finish (.after fun _ => .ok ((r.writeL d _).setFlags _)) ht
  | multl d src => exact Answers.finish (.after fun _ => .ok ((r.writeQ d _).setFlags _)) ht
  | div d src => exact Answers.finish (.after fun _ => .ok (Ordinary.divideWord s d _)) ht
  | divl d src => exact Answers.finish (.after fun _ => .ok (Ordinary.divideLong s d _)) ht
  | testb d | test d => exact Answers.finish (.after fun _ => .ok (r.setFlags _)) ht
  | testl d => exact Answers.finish (.after fun _ => .ok ((r.setFlags _).took 1)) ht
  | call dst => exact Answers.finish (.bind (Ordinary.pushPc s) fun _ h => .ok (h.jumpTo _)) ht
  | calr disp => exact Answers.finish (.bind (Ordinary.pushPc s) fun _ h => .ok (h.setPcOff _)) ht
  | djnz f disp =>
    refine Answers.finish (.ok ?_) ht
    split
    · exact r.writeW f _
    · exact (r.writeW f _).setPcOff _
  | dbjnz f disp =>
    refine Answers.finish (.ok ?_) ht
    split
    · exact r.writeB f _
    · exact (r.writeB f _).setPcOff _
  | jp cc dst =>
    refine Answers.finish (.ok ?_) ht
    split
    · exact r.jumpTo _
    · exact r
  | jr cc disp =>
    refine Answers.finish (.ok ?_) ht
    split
    · exact r.setPcOff _
    · exact r
  | ret cc => exact Answers.finish (.ite (Ordinary.popPc s) (.ok r)) ht
  | bitb d num | bit d num => exact Answers.finish (.after fun _ => .ok (r.setFlags _)) ht
  | bitbDyn d f | bitDyn d f => exact Answers.finish (.ok (r.setFlags _)) ht
  | resb d num | setb d num => exact (Ordinary.modifyB s _ d).finish ht
  | resbDyn d f => exact (Ordinary.modifyB s (fun v => clearBit v (s.dynBitB f)) (.r d)).finish ht
  | setbDyn d f => exact (Ordinary.modifyB s (fun v => setBit v (s.dynBitB f)) (.r d)).finish ht
  | res d num | set d num => exact (Ordinary.modifyW s _ d).finish ht
  | resDyn d f => exact (Ordinary.modifyW s (fun v => clearBit v (s.dynBitW f)) (.r d)).finish ht
  | setDyn d f => exact (Ordinary.modifyW s (fun v => setBit v (s.dynBitW f)) (.r d)).finish ht
  | tccb cc d =>
    refine Answers.finish (.ok ?_) ht
    split
    · exact r.writeB d _
    · exact r
  | tcc cc d =>
    refine Answers.finish (.ok ?_) ht
    split
    · exact r.writeW d _
    · exact r
  | rlb d two | rlcb d two | rrb d two | rrcb d two => exact Answers.finish (.ok (Ordinary.rotateB s _ d two)) ht
  | rl d two | rlc d two | rr d two | rrc d two => exact Answers.finish (.ok (Ordinary.rotateW s _ d two)) ht
  | rldb link src | rrdb link src => exact Answers.finish (.ok (Ordinary.rotateDigits s link src _ _)) ht
  | sdab d f | sdlb d f | slab d f | sllb d f | srab d f | srlb d f =>
    exact Answers.finish (.ok (Ordinary.shiftB s _ d _)) ht
  | sda d f | sdl d f | sla d f | sll d f | sra d f | srl d f =>
    exact Answers.finish (.ok (Ordinary.shiftW s _ d _)) ht
  | sdal d f | sdll d f | slal d f | slll d f | sral d f | srll d f =>
    exact Answers.finish (.ok (Ordinary.shiftL s _ d _)) ht
  | cpdb f cnt d cc | cpd f cnt d cc | cpib f cnt d cc | cpi f cnt d cc =>
    exact (Ordinary.once (Ordinary.searchStep s _ _ _ _ f cnt cc)).finish ht
  | cpdrb f cnt d cc | cpdr f cnt d cc | cpirb f cnt d cc | cpir f cnt d cc =>
    exact (Ordinary.repeated (Ordinary.searchStep s _ _ _ _ f cnt cc)).finish ht
  | cpsdb f cnt d cc | cpsd f cnt d cc | cpsib f cnt d cc | cpsi f cnt d cc =>
    exact (Ordinary.once (Ordinary.compareStep s _ _ f cnt d cc)).finish ht
  | cpsdrb f cnt d cc | cpsdr f cnt d cc | cpsirb f cnt d cc | cpsir f cnt d cc =>
    exact (Ordinary.repeated (Ordinary.compareStep s _ _ f cnt d cc)).finish ht
  | lddb f cnt d | ldib f cnt d =>
    exact (Ordinary.once (Ordinary.moveStep s _ _ (fun _ a v h => h.storeB a v) _ f cnt d)).finish ht
  | ldd f cnt d | ldi f cnt d =>
    exact (Ordinary.once (Ordinary.moveStep s _ _ (fun _ a v h => h.writeWord a v) _ f cnt d)).finish ht
  | lddrb f cnt d | ldirb f cnt d =>
    exact (Ordinary.repeated (Ordinary.moveStep s _ _ (fun _ a v h => h.storeB a v) _ f cnt d)).finish ht
  | lddr f cnt d | ldir f cnt d =>
    exact (Ordinary.repeated (Ordinary.moveStep s _ _ (fun _ a v h => h.writeWord a v) _ f cnt d)).finish ht
  | trdb d cnt f | trib d cnt f => exact (Ordinary.once (Ordinary.translateStep s _ _ d cnt f)).finish ht
  | trdrb d cnt f | trirb d cnt f => exact (Ordinary.repeated (Ordinary.translateStep s _ _ d cnt f)).finish ht
  | trtdb d cnt f | trtib d cnt f => exact (Ordinary.once (Ordinary.translateTestStep s _ d cnt f)).finish ht
  | trtdrb d cnt f | trtirb d cnt f => exact (Ordinary.repeated (Ordinary.translateTestStep s _ d cnt f)).finish ht
  | comflg mask => exact Answers.finish (.ok ((r.setFlags _).took 1)) ht
  | resflg mask | setflg mask | ldctlbWrite f => exact Answers.finish (.ok (r.setFlags _)) ht
  | nop => exact Answers.finish (.ok r) ht
  | sc v => exact absurd rfl (hs v)
  | _ => cases hp <;> cases he

end Sys2Proof.Machine
end

section
/-! The privileged and the extended instructions, trap entries and the return, as far as the invariant and the
confinement of normal mode go (60_exceptions R604, R610, R641, R642). -/

namespace Sys2Proof.Machine

/-! ### The invariant through the program status -/

namespace State.Inv
variable {s t : State}

theorem loadFcw (h : s.Inv) (w : Word) : (s.loadFcw w).Inv :=
  ⟨h.1, fun z2 => ⟨by simp [State.loadFcw, Fcw.ofWord, show s.cfg.variant = .z8002 from z2], (h.2 z2).2⟩⟩

theorem setPcOff (h : s.Inv) (v : Word) : (s.setPcOff v).Inv := h

theorem setPc (h : s.Inv) (g : BitVec 7) (v : Word) (z1 : s.cfg.variant = .z8001) : (s.setPc g v).Inv :=
  ⟨h.1, fun z2 => nomatch z1.symm.trans z2⟩

theorem forceSystem (h : s.Inv) : s.forceSystem.Inv :=
  ⟨h.1, fun z2 => ⟨by
    have seg := (h.2 z2).1
    simp [State.forceSystem, show s.cfg.variant = .z8002 from z2, seg], (h.2 z2).2⟩⟩

theorem loadStatus (h : s.Inv) (e : Event) : Answers State.Inv (s.loadStatus e) := by
  cases v : s.cfg.variant with
  | z8002 =>
    rw [loadStatus_z8002 v]
    exact .ok ((h.loadFcw _).setPcOff _)
  | z8001 =>
    rw [loadStatus_z8001 v]
    exact .ok ((h.loadFcw _).setPc _ _ v)

end State.Inv

theorem Ordinary.pushStatus (s : State) (g : BitVec 7) (off f id : Word) :
    Answers (Ordinary s) (s.pushStatus g off f id) := by
  unfold State.pushStatus
  refine .bind ((refl s).pushWord _ _) fun s1 h1 => .bind (Q := Ordinary s) ?_ fun s2 h2 =>
    .bind (h2.pushWord _ _) fun s3 h3 => h3.pushWord _ _
  split
  · exact h1.pushWord _ _
  · exact .ok h1

namespace State.Inv
variable {s : State}

theorem trapEntry (h : s.Inv) (e : Event) (id : Word) (g : BitVec 7) (off : Word) :
    Answers State.Inv (s.trapEntry e id g off) :=
  .bind (Ordinary.pushStatus _ _ _ _ _) fun _ ht => loadStatus (ht.inv (forceSystem h)) e

theorem trapReturn (h : s.Inv) : Answers State.Inv s.trapReturn := by
  unfold State.trapReturn
  split
  · exact .bind ((Ordinary.refl s).popWord _) fun _ h1 => .bind (h1.popWord _) fun _ h2 =>
      .bind (h2.popWord _) fun _ h3 => .ok (((h3.inv h).loadFcw _).setPcOff _)
  · next z1 =>
    exact .ite (.bind ((Ordinary.refl s).popWord _) fun _ h1 => .bind (h1.popWord _) fun _ h2 =>
      .bind (h2.popWord _) fun _ h3 => .bind (h3.popWord _) fun _ h4 =>
        .ok (((h4.inv h).loadFcw _).setPc _ _ ((congrArg Config.variant h4.cfg).trans z1))) .error

theorem loadProgramStatus (h : s.Inv) (a : Address) : Answers State.Inv (loadProgramStatus a s) := by
  unfold Machine.loadProgramStatus
  split
  · next hs =>
    have z1 : s.cfg.variant = .z8001 := by
      rw [State.segmented, Bool.and_eq_true, beq_iff_eq] at hs
      exact hs.1
    exact .after fun _ => .after fun _ => .after fun _ => .ok ((h.loadFcw _).setPc _ _ z1)
  · exact .after fun _ => .after fun _ => .ok ((h.loadFcw _).setPcOff _)

theorem setEnables (h : s.Inv) (vn : BitVec 2) (on : Bool) : (setEnables vn on s).Inv := h

theorem writeW (h : s.Inv) (f : RegField) (v : Word) : (s.writeW f v).Inv := h
theorem setMoHigh (h : s.Inv) (b : Bool) : (s.setMoHigh b).Inv := h
theorem setFlags (h : s.Inv) (f : Flags) : (s.setFlags f).Inv := h
theorem took (h : s.Inv) (k : Nat) : (s.took k).Inv := h
theorem sampleMi (h : s.Inv) : s.sampleMi.2.Inv := h

theorem writeSlot (h : s.Inv) (i : Fin 18) (v : Word) : (s.writeSlot i v).Inv := h

theorem writeControl (h : s.Inv) {c : CtlReg} (hc : s.hasControl c = true) (w : Word) : (s.writeControl c w).Inv := by
  cases c with
  | fcw => exact h.loadFcw w
  | refresh | psapoff => exact h
  | psapseg => exact ⟨h.1, fun z2 => nomatch (beq_iff_eq.mp hc).symm.trans z2⟩
  | nspseg | nspoff => exact h.writeSlot _ _

theorem multiRequest (h : s.Inv) (d : RegField) : (multiRequest d s).Inv := by
  unfold Machine.multiRequest
  dsimp only
  split
  · exact (((h.sampleMi.setMoHigh _).sampleMi.writeW _ _).setMoHigh _).setFlags _
  · exact (h.sampleMi.setMoHigh _).setFlags _

theorem inputB (h : s.Inv) (space : IoSpace) (d : RegField) (port : Word) : (inputB space d port s).Inv :=
  ((Ordinary.refl (s.ioRead space false port).2).writeB d _).inv h
theorem inputW (h : s.Inv) (space : IoSpace) (d : RegField) (port : Word) : (inputW space d port s).Inv :=
  ((Ordinary.refl (s.ioRead space true port).2).writeW d _).inv h

variable {n : Nat}

theorem inputStep (h : s.Inv) (rep : Bool) (space : IoSpace) {store : State → Address → BitVec n → Exec State}
    (hst : ∀ s t a v, Ordinary s t → Answers (Ordinary s) (store t a v)) (k : Word) (f cnt d : RegField) :
    Answers (fun p => p.1.Inv) (inputStep rep space store k f cnt d s) :=
  fun p hp => (Ordinary.inputStep s rep space hst k f cnt d p hp).inv h

theorem outputStep (h : s.Inv) (space : IoSpace) (get : State → Address → Exec (BitVec n)) (k : Word)
    (f cnt d : RegField) : Answers (fun p => p.1.Inv) (outputStep space get k f cnt d s) := by
  intro p hp
  obtain ⟨v, ordinary⟩ := Ordinary.outputStep s space get k f cnt d p hp
  exact ordinary.inv h

theorem once {x : Exec (State × Bool)} (h : Answers (fun p => p.1.Inv) x) : Answers State.Inv (once x) :=
  .bind h fun _ hp => .ok hp
theorem repeated {x : Exec (State × Bool)} (h : Answers (fun p => p.1.Inv) x) : Answers State.Inv (repeated x) :=
  .bind h fun p hp => .ok (((Ordinary.refl p.1).again _).inv hp)

end State.Inv

/-! ### The privileged instructions -/

/-- A privileged instruction is the privileged form of a meaning that keeps the invariant. -/
theorem exec_privileged {i : Instr} (hp : isPrivileged i = true) (s : State) :
    ∃ body, exec i s = finish (s.privileged i body) ∧ (s.Inv → Answers State.Inv body) := by
  have byte (s t : State) (a : Address) (v : Byte) (h : Ordinary s t) := h.storeB a v
  have word (s t : State) (a : Address) (v : Word) (h : Ordinary s t) := h.writeWord a v
  cases i with
  | di vn | ei vn => exact ⟨_, rfl, fun h => .ok (h.setEnables vn _)⟩
  | halt | mres | mset => exact ⟨_, rfl, fun h => .ok h⟩
  | mbit => exact ⟨_, rfl, fun h => .ok h⟩
  | mreq d => exact ⟨_, rfl, fun h => .ok (h.multiRequest d)⟩
  | iret => exact ⟨_, rfl, fun h => h.trapReturn⟩
  | ldctlRead d c => exact ⟨_, rfl, fun h => .after fun _ => .ok ((h.writeW d _).took 2)⟩
  | ldctlWrite c f => exact ⟨_, rfl, fun h => .bind (fun _ => require_ok.mp) fun _ hc => .ok (h.writeControl hc _)⟩
  | ldps src => exact ⟨_, rfl, fun h => h.loadProgramStatus _⟩
  | inpb d p | sinb d p => exact ⟨_, rfl, fun h => .ok (h.inputB _ d _)⟩
  | inp d p | sin d p => exact ⟨_, rfl, fun h => .ok (h.inputW _ d _)⟩
  | outb p f | out p f | soutb p f | sout p f => exact ⟨_, rfl, fun h => .ok h⟩
  | indb f cnt d | inib f cnt d | sindb f cnt d | sinib f cnt d =>
    exact ⟨_, rfl, fun h => .once (h.inputStep _ _ byte _ f cnt d)⟩
  | ind f cnt d | ini f cnt d | sind f cnt d | sini f cnt d =>
    exact ⟨_, rfl, fun h => .once (h.inputStep _ _ word _ f cnt d)⟩
  | indrb f cnt d | inirb f cnt d | sindrb f cnt d | sinirb f cnt d =>
    exact ⟨_, rfl, fun h => .repeated (h.inputStep _ _ byte _ f cnt d)⟩
  | indr f cnt d | inir f cnt d | sindr f cnt d | sinir f cnt d =>
    exact ⟨_, rfl, fun h => .repeated (h.inputStep _ _ word _ f cnt d)⟩
  | outdb f cnt d | outd f cnt d | outib f cnt d | outi f cnt d | soutdb f cnt d | soutd f cnt d | soutib f cnt d
  | souti f cnt d => exact ⟨_, rfl, fun h => .once (h.outputStep _ _ _ f cnt d)⟩
  | otdrb f cnt d | otdr f cnt d | otirb f cnt d | otir f cnt d | sotdrb f cnt d | sotdr f cnt d | sotirb f cnt d
  | sotir f cnt d => exact ⟨_, rfl, fun h => .repeated (h.outputStep _ _ _ f cnt d)⟩
  | _ => cases hp

/-! ### The extended instructions -/

theorem Ordinary.epuToMemory {s t : State} (h : Ordinary s t) (n : Nat) (a : Address) :
    Answers (Ordinary s) (epuToMemory n a t) := by
  induction n generalizing t a with
  | zero => exact .ok h
  | succ n ih => exact .bind (h.epuRead.writeWord _ _) fun _ h' => ih h' _

theorem Ordinary.memoryToEpu {s t : State} (h : Ordinary s t) (n : Nat) (a : Address) :
    Answers (Ordinary s) (memoryToEpu n a t) := by
  induction n generalizing t a with
  | zero => exact .ok h
  | succ n ih => exact .after fun _ => ih (h.epuWrite _) _

theorem Ordinary.epuToRegs {s t : State} (h : Ordinary s t) (n : Nat) (f : RegField) : Ordinary s (epuToRegs n f t) := by
  induction n generalizing t f with
  | zero => exact h
  | succ n ih => exact ih (h.epuRead.writeW _ _) _

theorem Ordinary.regsToEpu {s t : State} (h : Ordinary s t) (n : Nat) (f : RegField) : Ordinary s (regsToEpu n f t) := by
  induction n generalizing t f with
  | zero => exact h
  | succ n ih => exact ih (h.epuWrite _) _

/-- An extended instruction is the extended form of an ordinary meaning. -/
theorem exec_extended {i : Instr} (he : isExtended i = true) (s : State) :
    ∃ body, exec i s = finish (s.extended i body) ∧ Answers (Ordinary s) body := by
  have r := Ordinary.refl s
  cases i with
  | epaStm dst u1 u2 num => exact ⟨_, rfl, .after fun _ => r.epuToMemory _ _⟩
  | epaLdm src u1 u2 num => exact ⟨_, rfl, .after fun _ => r.memoryToEpu _ _⟩
  | epaLdr u1 u2 u3 d u4 num => exact ⟨_, rfl, .ok (r.epuToRegs _ d)⟩
  | epaStr u1 u2 u3 f u4 num => exact ⟨_, rfl, .ok (r.regsToEpu _ f)⟩
  | epaLdf u1 u2 u3 u4 => exact ⟨_, rfl, .ok (((r.epuRead.setFlags _).writeW _ _).took 1)⟩
  | epaStf u1 u2 u3 u4 => exact ⟨_, rfl, .ok (r.epuWrite _)⟩
  | epaOp u1 u2 w2 => exact ⟨_, rfl, .ok r⟩
  | epaOther w1 w2 => exact ⟨_, rfl, .error⟩
  | _ => cases he

/-! ### Every instruction -/

/-- Every instruction keeps the invariant. -/
theorem exec_inv {i : Instr} {s t : State} (h : s.Inv) (ht : exec i s = .next t) : t.Inv := by
  have trap (e : Event) (id : Word) (g : BitVec 7) (off : Word) := h.trapEntry e id g off
  by_cases hp : isPrivileged i = true
  · obtain ⟨body, eq, keeps⟩ := exec_privileged hp s
    rw [eq] at ht
    exact Answers.finish (.ite (keeps h) (trap _ _ _ _)) ht
  by_cases he : isExtended i = true
  · obtain ⟨body, eq, keeps⟩ := exec_extended he s
    rw [eq] at ht
    exact Answers.finish (.ite (fun u hu => (keeps u hu).inv h) (trap _ _ _ _)) ht
  by_cases hs : ∃ v, i = .sc v
  · obtain ⟨v, rfl⟩ := hs
    exact (trap _ _ _ _).finish ht
  · exact (exec_ordinary (by simpa using hp) (by simpa using he) (fun v hv => hs ⟨v, hv⟩) ht).inv h

/-- The boundary's change of the request lines keeps the invariant (60_exceptions R606). -/
theorem latch_inv {s : State} (h : s.Inv) : s.latch.Inv := by
  unfold State.latch
  split
  · exact h
  · next a rest _ =>
    cases a with
    | segtrap =>
      cases v : s.cfg.variant with
      | z8001 => exact ⟨by simp [State.arrive, v, h.1], fun z2 => by simp [State.arrive, v] at z2⟩
      | z8002 =>
        have eq : (s.setArrivals rest).arrive .segtrap = s.setArrivals rest := by simp [State.arrive, v]
        rw [eq]
        exact h
    | reset | nmi | vi b | nvi b => exact h

theorem resetEvent_inv {s : State} (h : s.Inv) : s.resetEvent.Inv := by
  unfold State.resetEvent
  refine ⟨h.1, fun z2 => ?_⟩
  have z2 : s.cfg.variant = .z8002 := z2
  simp [z2, Fcw.ofWord]

theorem takeEvent_inv {s : State} (h : s.Inv) (e : Word → Event) : Answers State.Inv (s.takeEvent e) :=
  State.Inv.trapEntry (s := s.acknowledge.2) h _ _ _ _

theorem runInstr_inv {s t : State} (h : s.Inv) (ht : runInstr s = .next t) : t.Inv := by
  unfold runInstr at ht
  split at ht
  · exact Answers.finish .error ht
  · split at ht
    · cases ht
    · split at ht
      · cases ht
      · exact exec_inv (h.setPcOff _) ht

/-- Settles O8, by the event of the boundary. -/
theorem stepInvariant : Obligations.StepInvariant := by
  intro s t inv ht
  have h := latch_inv inv
  rw [step_eq_of_event] at ht
  split at ht
  · cases ht
    exact resetEvent_inv h
  · exact (takeEvent_inv (s := s.latch.setNmiPending false) h _).finish ht
  · refine (takeEvent_inv (s := s.latch.setSegtrapRequest false) ⟨h.1, fun z2 => ?_⟩ _).finish ht
    obtain ⟨seg, pcSeg, psapSeg, _⟩ := h.2 z2
    exact ⟨seg, pcSeg, psapSeg, rfl⟩
  · exact (takeEvent_inv h _).finish ht
  · exact (takeEvent_inv h _).finish ht
  · cases ht
    exact h
  · exact runInstr_inv h ht

/-! ### Privilege -/

theorem exec_privileged_normal {i : Instr} {s : State} (hp : isPrivileged i = true) (normal : s.fcw.sn = false) :
    exec i s = finish (s.decodeTrap .privileged i) := by
  obtain ⟨body, eq, _⟩ := exec_privileged hp s
  rw [eq, privileged_normal normal]

theorem exec_extended_disabled {i : Instr} {s : State} (he : isExtended i = true) (disabled : s.fcw.epa = false) :
    exec i s = finish (s.decodeTrap .extended i) := by
  obtain ⟨body, eq, _⟩ := exec_extended he s
  rw [eq, extended_disabled disabled]

theorem exec_extended_enabled {i : Instr} {s t : State} (he : isExtended i = true) (enabled : s.fcw.epa = true)
    (ht : exec i s = .next t) : Ordinary s t := by
  obtain ⟨body, eq, ordinary⟩ := exec_extended he s
  rw [eq, extended_enabled enabled] at ht
  exact ordinary.finish ht

theorem decodeTrap_eq (s : State) (e : Event) (i : Instr) : s.decodeTrap e i = s.trapEntry e (firstWord i) s.pcSeg
    (if s.cfg.trapPcPolicy = .afterFirstWord then s.pcOff - BitVec.ofNat 16 (2 * (lengthWords i - 1)) else s.pcOff) := by
  rw [← decodeTrapPc_eq]
  rfl

/-- Settles O16: a privileged instruction traps, an extended one traps or is ordinary, SC traps, and any other
instruction is ordinary. -/
theorem normalModeConfined : Obligations.NormalModeConfined := by
  intro s t i normal ht
  have confined (h : Ordinary s t) := And.intro h.control <| And.intro (congrArg State.psapSeg h.others :) <|
    And.intro (congrArg State.psapOff h.others :) <| And.intro (congrArg State.refresh h.others :) <|
    And.intro (congrArg State.moHigh h.others :) <| And.intro (congrArg State.halted h.others :) <|
    And.intro (congrArg State.ioIn h.others :) <| And.intro (congrArg State.ioLog h.others :) <|
    And.intro h.cfg (h.bank normal)
  have traps {e : Event} {id off : Word} (listed : e = .privileged ∨ e = .extended ∨ e = .systemCall)
      (trap : s.trapEntry e id s.pcSeg off = .ok t) :
      ∃ n e id off, (e = .privileged ∨ e = .extended ∨ e = .systemCall) ∧
        (s.took n).trapEntry e id s.pcSeg off = .ok t := ⟨0, e, id, off, listed, trap⟩
  by_cases hp : isPrivileged i = true
  · rw [exec_privileged_normal hp normal] at ht
    exact .inl (traps (.inl rfl) (finish_next.mp ht))
  by_cases he : isExtended i = true
  · cases epa : s.fcw.epa with
    | true => exact .inr (confined (exec_extended_enabled he epa ht))
    | false =>
      rw [exec_extended_disabled he epa] at ht
      exact .inl (traps (.inr (.inl rfl)) (finish_next.mp ht))
  by_cases hs : ∃ v, i = .sc v
  · obtain ⟨v, rfl⟩ := hs
    exact .inl (traps (.inr (.inr rfl)) (finish_next.mp ht))
  · exact .inr (confined (exec_ordinary (by simpa using hp) (by simpa using he) (fun v hv => hs ⟨v, hv⟩) ht))

/-- Settles O9. -/
theorem privilegedTrap : Obligations.PrivilegedTrap := by
  intro s i normal
  refine ⟨fun hp => ?_, fun m r hi => ?_, ?_⟩
  · rw [exec_privileged_normal hp normal, decodeTrap_eq]
  · simp only [List.mem_cons, List.not_mem_nil, or_false] at hi
    rcases hi with rfl | rfl | rfl | rfl | rfl <;> exact ⟨_, rfl, rfl, rfl⟩
  · rintro v rfl
    have identifier : firstWord (.sc v) = 0x7F#8 ++ v := by
      revert v
      decide +kernel
    rw [identifier]
    rfl

end Sys2Proof.Machine
end

section
/-! The frame of an instruction: one rule per operation of the state, the views of a state after each operation, and
the shapes that read a destination and write it once. -/

namespace Sys2Proof.Machine

/-! ### The bytes of an access -/

theorem keyAt_mem_bytes {j n : Nat} (a : Address) (h : j < n) : a.keyAt j ∈ a.bytes n :=
  List.mem_map_of_mem (List.mem_range.mpr h)

theorem keyAt_add (a : Address) (i j : Nat) : (a.add (BitVec.ofNat 16 i)).keyAt j = a.keyAt (i + j) := by
  unfold Address.keyAt
  rw [Address.add_add, ← BitVec.ofNat_add]

/-! ### The frame -/

namespace Frame
variable {s t : State} {slots : List (Fin 18)} {keys : List Nat}

theorem refl (s : State) : Frame s s slots keys := ⟨fun _ _ => rfl, fun _ _ => rfl, rfl, rfl⟩

theorem mono {slots' : List (Fin 18)} {keys' : List Nat} (h : Frame s t slots keys) (hs : ∀ i ∈ slots, i ∈ slots')
    (hk : ∀ k ∈ keys, k ∈ keys') : Frame s t slots' keys' :=
  ⟨fun i hi => h.regs i fun x => hi (hs i x), fun k hi => h.mem k fun x => hi (hk k x), h.control, h.others⟩

theorem cfg (h : Frame s t slots keys) : t.cfg = s.cfg := (congrArg State.cfg h.others :)
theorem sn (h : Frame s t slots keys) : t.fcw.sn = s.fcw.sn := (congrArg Fcw.sn h.control :)
theorem seg (h : Frame s t slots keys) : t.fcw.seg = s.fcw.seg := (congrArg Fcw.seg h.control :)
theorem slot (h : Frame s t slots keys) (f : RegField) : t.slot f = s.slot f := slot_congr h.cfg h.sn f

theorem segmented (h : Frame s t slots keys) : t.segmented = s.segmented := by
  unfold State.segmented
  rw [h.cfg, h.seg]

theorem offField (h : Frame s t slots keys) (f : RegField) : t.offField f = s.offField f := by
  unfold State.offField
  rw [h.segmented]

theorem writeSlot (h : Frame s t slots keys) {i : Fin 18} (hi : i ∈ slots) (v : Word) :
    Frame s (t.writeSlot i v) slots keys := by
  refine ⟨fun j hj => ?_, h.mem, h.control, h.others⟩
  have ne : j ≠ i := fun e => hj (e ▸ hi)
  exact (writeSlot_get _ _ _ _).trans ((if_neg ne).trans (h.regs j hj))

theorem writeW (h : Frame s t slots keys) {f : RegField} (hf : s.slot f ∈ slots) (v : Word) :
    Frame s (t.writeW f v) slots keys := h.writeSlot (by rw [h.slot]; exact hf) v

theorem writeB (h : Frame s t slots keys) {f : RegField} (hf : s.slotB f ∈ slots) (v : Byte) :
    Frame s (t.writeB f v) slots keys := h.writeW hf _

theorem writeL (h : Frame s t slots keys) {f : RegField} (hf : ∀ i ∈ s.slotsL f, i ∈ slots) (v : Long) :
    Frame s (t.writeL f v) slots keys :=
  (h.writeW (hf _ (List.mem_cons_self ..)) _).writeW (hf _ (List.mem_cons_of_mem _ (List.mem_cons_self ..))) _

theorem writeQ (h : Frame s t slots keys) {f : RegField} (hf : ∀ i ∈ s.slotsQ f, i ∈ slots) (v : Quad) :
    Frame s (t.writeQ f v) slots keys :=
  (h.writeL (fun i hi => hf i (List.mem_append_left _ hi)) _).writeL (fun i hi => hf i (List.mem_append_right _ hi)) _

theorem stepPointer (h : Frame s t slots keys) {f : RegField} (hf : s.slot (s.offField f) ∈ slots) (k : Word) :
    Frame s (t.stepPointer f k) slots keys := h.writeW (by rw [h.offField]; exact hf) _

theorem writeByte (h : Frame s t slots keys) {a : Address} (ha : a.key ∈ keys) (v : Byte) :
    Frame s (t.writeByte a v) slots keys := by
  refine ⟨h.regs, fun k hk => ?_, h.control, h.others⟩
  have ne : k ≠ a.key := fun e => hk (e ▸ ha)
  exact (writeByte_read _ _ _ _).trans ((if_neg ne).trans (h.mem k hk))

theorem pokeWord (h : Frame s t slots keys) {a : Address} (ha : ∀ j < 2, a.keyAt j ∈ keys) (v : Word) :
    Frame s (t.pokeWord a v) slots keys :=
  (h.writeByte (keyAt_zero a ▸ ha 0 (by decide)) _).writeByte (ha 1 (by decide)) _

theorem pokeLong (h : Frame s t slots keys) {a : Address} (ha : ∀ j < 4, a.keyAt j ∈ keys) (v : Long) :
    Frame s (t.pokeLong a v) slots keys :=
  (h.pokeWord (fun j hj => ha j (by omega)) _).pokeWord
    (fun j hj => by rw [show (2#16 : Word) = BitVec.ofNat 16 2 from rfl, keyAt_add]; exact ha _ (by omega)) _

theorem setFlags (h : Frame s t slots keys) (f : Flags) : Frame s (t.setFlags f) slots keys :=
  ⟨h.regs, h.mem, h.control, h.others⟩
theorem took (h : Frame s t slots keys) (k : Nat) : Frame s (t.took k) slots keys :=
  ⟨h.regs, h.mem, h.control, h.others⟩
theorem setPcOff (h : Frame s t slots keys) (v : Word) : Frame s (t.setPcOff v) slots keys :=
  ⟨h.regs, h.mem, h.control, h.others⟩
theorem setPc (h : Frame s t slots keys) (g : BitVec 7) (v : Word) : Frame s (t.setPc g v) slots keys :=
  ⟨h.regs, h.mem, h.control, h.others⟩

theorem jumpTo (h : Frame s t slots keys) (a : Address) : Frame s (t.jumpTo a) slots keys := by
  unfold State.jumpTo
  split
  · exact h.setPc _ _
  · exact h.setPcOff _

theorem again (h : Frame s t slots keys) (done : Bool) : Frame s (t.again done) slots keys := by
  cases done
  · exact h.setPcOff _
  · exact h

end Frame

/-! ### What each operation leaves to be seen -/

@[simp] theorem setFlags_registers (s : State) (x : Flags) :
    (∀ y, (s.setFlags x).readW y = s.readW y) ∧ (∀ y, (s.setFlags x).readB y = s.readB y) ∧
    (∀ y, (s.setFlags x).readL y = s.readL y) ∧ (∀ y, (s.setFlags x).readQ y = s.readQ y) ∧
    (∀ y, (s.setFlags x).pointer y = s.pointer y) ∧ (s.setFlags x).flags = x :=
  ⟨fun _ => rfl, fun _ => rfl, fun _ => rfl, fun _ => rfl, fun _ => rfl, rfl⟩

@[simp] theorem setFlags_memory (s : State) (x : Flags) :
    (∀ y, (s.setFlags x).readByte y = s.readByte y) ∧ (∀ y, (s.setFlags x).peekWord y = s.peekWord y) ∧
    (∀ y, (s.setFlags x).peekLong y = s.peekLong y) :=
  ⟨fun _ => rfl, fun _ => rfl, fun _ => rfl⟩

@[simp] theorem took_registers (s : State) (k : Nat) :
    (∀ y, (s.took k).readW y = s.readW y) ∧ (∀ y, (s.took k).readB y = s.readB y) ∧
    (∀ y, (s.took k).readL y = s.readL y) ∧ (∀ y, (s.took k).readQ y = s.readQ y) ∧
    (∀ y, (s.took k).pointer y = s.pointer y) ∧ (s.took k).flags = s.flags :=
  ⟨fun _ => rfl, fun _ => rfl, fun _ => rfl, fun _ => rfl, fun _ => rfl, rfl⟩

@[simp] theorem took_memory (s : State) (k : Nat) :
    (∀ y, (s.took k).readByte y = s.readByte y) ∧ (∀ y, (s.took k).peekWord y = s.peekWord y) ∧
    (∀ y, (s.took k).peekLong y = s.peekLong y) :=
  ⟨fun _ => rfl, fun _ => rfl, fun _ => rfl⟩

@[simp] theorem setPcOff_registers (s : State) (x : Word) :
    (∀ y, (s.setPcOff x).readW y = s.readW y) ∧ (∀ y, (s.setPcOff x).readB y = s.readB y) ∧
    (∀ y, (s.setPcOff x).readL y = s.readL y) ∧ (∀ y, (s.setPcOff x).readQ y = s.readQ y) ∧
    (∀ y, (s.setPcOff x).pointer y = s.pointer y) ∧ (s.setPcOff x).flags = s.flags :=
  ⟨fun _ => rfl, fun _ => rfl, fun _ => rfl, fun _ => rfl, fun _ => rfl, rfl⟩

@[simp] theorem setPcOff_memory (s : State) (x : Word) :
    (∀ y, (s.setPcOff x).readByte y = s.readByte y) ∧ (∀ y, (s.setPcOff x).peekWord y = s.peekWord y) ∧
    (∀ y, (s.setPcOff x).peekLong y = s.peekLong y) :=
  ⟨fun _ => rfl, fun _ => rfl, fun _ => rfl⟩

@[simp] theorem setPc_registers (s : State) (g : BitVec 7) (x : Word) :
    (∀ y, (s.setPc g x).readW y = s.readW y) ∧ (∀ y, (s.setPc g x).readB y = s.readB y) ∧
    (∀ y, (s.setPc g x).readL y = s.readL y) ∧ (∀ y, (s.setPc g x).readQ y = s.readQ y) ∧
    (s.setPc g x).flags = s.flags :=
  ⟨fun _ => rfl, fun _ => rfl, fun _ => rfl, fun _ => rfl, rfl⟩

@[simp] theorem setPc_memory (s : State) (g : BitVec 7) (x : Word) :
    (∀ y, (s.setPc g x).readByte y = s.readByte y) ∧ (∀ y, (s.setPc g x).peekWord y = s.peekWord y) ∧
    (∀ y, (s.setPc g x).peekLong y = s.peekLong y) :=
  ⟨fun _ => rfl, fun _ => rfl, fun _ => rfl⟩

@[simp] theorem writeByte_registers (s : State) (a : Address) (v : Byte) :
    (∀ y, (s.writeByte a v).readW y = s.readW y) ∧ (∀ y, (s.writeByte a v).readB y = s.readB y) ∧
    (∀ y, (s.writeByte a v).readL y = s.readL y) ∧ (∀ y, (s.writeByte a v).readQ y = s.readQ y) ∧
    (∀ y, (s.writeByte a v).pointer y = s.pointer y) ∧ (∀ y, (s.writeByte a v).ea y = s.ea y) ∧
    (s.writeByte a v).flags = s.flags :=
  ⟨fun _ => rfl, fun _ => rfl, fun _ => rfl, fun _ => rfl, fun _ => rfl, fun _ => rfl, rfl⟩

@[simp] theorem pokeWord_registers (s : State) (a : Address) (v : Word) :
    (∀ y, (s.pokeWord a v).readW y = s.readW y) ∧ (∀ y, (s.pokeWord a v).readB y = s.readB y) ∧
    (∀ y, (s.pokeWord a v).readL y = s.readL y) ∧ (∀ y, (s.pokeWord a v).readQ y = s.readQ y) ∧
    (∀ y, (s.pokeWord a v).pointer y = s.pointer y) ∧ (∀ y, (s.pokeWord a v).ea y = s.ea y) ∧
    (s.pokeWord a v).flags = s.flags := by
  simp [State.pokeWord]

@[simp] theorem pokeLong_registers (s : State) (a : Address) (v : Long) :
    (∀ y, (s.pokeLong a v).readW y = s.readW y) ∧ (∀ y, (s.pokeLong a v).readB y = s.readB y) ∧
    (∀ y, (s.pokeLong a v).readL y = s.readL y) ∧ (∀ y, (s.pokeLong a v).readQ y = s.readQ y) ∧
    (∀ y, (s.pokeLong a v).pointer y = s.pointer y) ∧ (∀ y, (s.pokeLong a v).ea y = s.ea y) ∧
    (s.pokeLong a v).flags = s.flags := by
  simp [State.pokeLong]

@[simp] theorem writeW_memory (s : State) (f : RegField) (v : Word) :
    (∀ y, (s.writeW f v).readByte y = s.readByte y) ∧ (∀ y, (s.writeW f v).peekWord y = s.peekWord y) ∧
    (∀ y, (s.writeW f v).peekLong y = s.peekLong y) ∧ (s.writeW f v).flags = s.flags :=
  ⟨fun _ => rfl, fun _ => rfl, fun _ => rfl, rfl⟩

@[simp] theorem writeB_memory (s : State) (f : RegField) (v : Byte) :
    (∀ y, (s.writeB f v).readByte y = s.readByte y) ∧ (∀ y, (s.writeB f v).peekWord y = s.peekWord y) ∧
    (∀ y, (s.writeB f v).peekLong y = s.peekLong y) ∧ (s.writeB f v).flags = s.flags :=
  ⟨fun _ => rfl, fun _ => rfl, fun _ => rfl, rfl⟩

@[simp] theorem writeL_memory (s : State) (f : RegField) (v : Long) :
    (∀ y, (s.writeL f v).readByte y = s.readByte y) ∧ (∀ y, (s.writeL f v).peekWord y = s.peekWord y) ∧
    (∀ y, (s.writeL f v).peekLong y = s.peekLong y) ∧ (s.writeL f v).flags = s.flags :=
  ⟨fun _ => rfl, fun _ => rfl, fun _ => rfl, rfl⟩

@[simp] theorem writeQ_memory (s : State) (f : RegField) (v : Quad) :
    (∀ y, (s.writeQ f v).readByte y = s.readByte y) ∧ (∀ y, (s.writeQ f v).peekWord y = s.peekWord y) ∧
    (∀ y, (s.writeQ f v).peekLong y = s.peekLong y) ∧ (s.writeQ f v).flags = s.flags :=
  ⟨fun _ => rfl, fun _ => rfl, fun _ => rfl, rfl⟩

@[simp] theorem stepPointer_memory (s : State) (f : RegField) (k : Word) :
    (∀ y, (s.stepPointer f k).readByte y = s.readByte y) ∧ (∀ y, (s.stepPointer f k).peekWord y = s.peekWord y) ∧
    (∀ y, (s.stepPointer f k).peekLong y = s.peekLong y) ∧ (s.stepPointer f k).flags = s.flags :=
  ⟨fun _ => rfl, fun _ => rfl, fun _ => rfl, rfl⟩

@[simp] theorem setFlags_ea (s : State) (x : Flags) (m : Mem) : (s.setFlags x).ea m = s.ea m := rfl
@[simp] theorem took_ea (s : State) (k : Nat) (m : Mem) : (s.took k).ea m = s.ea m := rfl

end Sys2Proof.Machine
end

section
/-! The arithmetic of the model as the arithmetic of the claims (41_arithmetic R250): sums and differences with their
flags, at every width. -/

namespace Sys2Proof.Machine

variable {n : Nat}

/-- An integer of at most `n + 1` signed bits, wrapped into `n` bits: the sign bit is the integer's sign when the
integer is in range, and the other one when it is not. -/
theorem ofInt_msb (hn : 0 < n) {x : Int} (lo : -(2 ^ n : Int) ≤ x) (hi : x < 2 ^ n) :
    (BitVec.ofInt n x).msb = decide (x < 0 ↔ -(2 ^ (n - 1) : Int) ≤ x ∧ x < 2 ^ (n - 1)) := by
  obtain ⟨k, rfl⟩ : ∃ k, n = k + 1 := ⟨n - 1, by omega⟩
  have modulus : (2 : Int) ^ (k + 1) = 2 * 2 ^ k := by ring
  have natModulus : ((2 ^ (k + 1) : Nat) : Int) = 2 * 2 ^ k := by push_cast; ring
  have wrapped {r : Int} (y : Int) (eq : x = r + y * (2 * 2 ^ k)) (hlo : -(2 ^ k : Int) ≤ r) (hhi : r < 2 ^ k) :
      (BitVec.ofInt (k + 1) x).toInt = r := by
    rw [BitVec.toInt_ofInt, eq, ← natModulus, Int.add_mul_bmod_self_right]
    exact Int.bmod_eq_of_le_mul_two (by omega) (by omega)
  rw [BitVec.msb_eq_toInt, Nat.add_sub_cancel, decide_eq_decide]
  by_cases below : x < -(2 ^ k : Int)
  · rw [wrapped (r := x + 2 * 2 ^ k) (-1) (by ring) (by omega) (by omega)]
    omega
  by_cases above : (2 ^ k : Int) ≤ x
  · rw [wrapped (r := x - 2 * 2 ^ k) 1 (by ring) (by omega) (by omega)]
    omega
  · rw [wrapped (r := x) 0 (by ring) (by omega) (by omega)]
    omega

theorem addR_eq_ofInt (a b : BitVec n) (c : Bool) : addR a b c = BitVec.ofInt n (a.toInt + b.toInt + c.toNat) := by
  rw [BitVec.ofInt_add, BitVec.ofInt_add, BitVec.ofInt_toInt, BitVec.ofInt_toInt, BitVec.ofInt_natCast]
  rfl

theorem subR_eq_ofInt (a b : BitVec n) (c : Bool) : subR a b c = BitVec.ofInt n (a.toInt - b.toInt - c.toNat) := by
  have ofInt_sub (x y : Int) : BitVec.ofInt n (x - y) = BitVec.ofInt n x - BitVec.ofInt n y := Int.cast_sub x y
  rw [ofInt_sub, ofInt_sub, BitVec.ofInt_toInt, BitVec.ofInt_toInt, BitVec.ofInt_natCast]
  rfl

/-- The overflow of a sum, two operands of one sign and a result of the other, is the signed sum out of range. -/
theorem addV_eq_outOfRange (hn : 0 < n) (a b : BitVec n) (c : Bool) :
    addV a b c = outOfRange n (a.toInt + b.toInt + c.toNat) := by
  have double : (2 : Int) ^ n = 2 * 2 ^ (n - 1) := by
    rw [← pow_succ', Nat.sub_add_cancel hn]
  have := BitVec.le_toInt a
  have := BitVec.le_toInt b
  have := a.toInt_lt
  have := b.toInt_lt
  have carry : c.toNat ≤ 1 := c.toNat_le
  rw [addV, addR_eq_ofInt, ofInt_msb hn (by omega) (by omega), BitVec.msb_eq_toInt, BitVec.msb_eq_toInt, outOfRange,
    Bool.eq_iff_iff]
  simp only [Bool.and_eq_true, beq_iff_eq, bne_iff_ne, decide_eq_decide, decide_eq_true_eq, ne_eq]
  omega

/-- The same for a difference. -/
theorem subV_eq_outOfRange (hn : 0 < n) (a b : BitVec n) (c : Bool) :
    subV a b c = outOfRange n (a.toInt - b.toInt - c.toNat) := by
  have double : (2 : Int) ^ n = 2 * 2 ^ (n - 1) := by
    rw [← pow_succ', Nat.sub_add_cancel hn]
  have := BitVec.le_toInt a
  have := BitVec.le_toInt b
  have := a.toInt_lt
  have := b.toInt_lt
  have carry : c.toNat ≤ 1 := c.toNat_le
  rw [subV, subR_eq_ofInt, ofInt_msb hn (by omega) (by omega), BitVec.msb_eq_toInt, BitVec.msb_eq_toInt, outOfRange,
    Bool.eq_iff_iff]
  simp only [Bool.and_eq_true, beq_iff_eq, bne_iff_ne, decide_eq_decide, decide_eq_true_eq, ne_eq]
  omega

theorem Flags.zs_eq_signFlags (f : Flags) (r : BitVec n) : f.zs r = signFlags r f := rfl

/-- ADD, ADDL, ADC as the claims state them. -/
theorem addAlu_eq (hn : 0 < n) (c : Bool) (a b : BitVec n) (f : Flags) :
    addAlu c a b f = (sumOf a b c, sumFlags a b c f) := by
  simp only [addAlu, addV_eq_outOfRange hn, addR_eq_sumOf]
  rfl

/-- SUB, SUBL, SBC and the comparisons as the claims state them. -/
theorem subAlu_eq (hn : 0 < n) (c : Bool) (a b : BitVec n) (f : Flags) :
    subAlu c a b f = (diffOf a b c, diffFlags a b c f) := by
  simp only [subAlu, subV_eq_outOfRange hn, subR_eq_diffOf]
  rfl

theorem addAluB_eq (c : Bool) (a b : Byte) (f : Flags) : addAluB c a b f =
    (sumOf a b c, { sumFlags a b c f with d := false, h := decide (16 ≤ a.toNat % 16 + b.toNat % 16 + c.toNat) }) := by
  simp only [addAluB, addV_eq_outOfRange (show 0 < 8 by decide), addR_eq_sumOf]
  rfl

theorem subAluB_eq (c : Bool) (a b : Byte) (f : Flags) : subAluB c a b f =
    (diffOf a b c, { diffFlags a b c f with d := true, h := decide (a.toNat % 16 < b.toNat % 16 + c.toNat) }) := by
  simp only [subAluB, subV_eq_outOfRange (show 0 < 8 by decide), subR_eq_diffOf]
  rfl

theorem incAlu_eq (hn : 0 < n) (num : BitVec 4) (a : BitVec n) (f : Flags) : incAlu num a f =
    (sumOf a (BitVec.ofNat n (num.toNat + 1)) false,
      { sumFlags a (BitVec.ofNat n (num.toNat + 1)) false f with c := f.c }) := by
  simp only [incAlu, addV_eq_outOfRange hn, addR_eq_sumOf]
  rfl

theorem decAlu_eq (hn : 0 < n) (num : BitVec 4) (a : BitVec n) (f : Flags) : decAlu num a f =
    (diffOf a (BitVec.ofNat n (num.toNat + 1)) false,
      { diffFlags a (BitVec.ofNat n (num.toNat + 1)) false f with c := f.c }) := by
  simp only [decAlu, subV_eq_outOfRange hn, subR_eq_diffOf]
  rfl

/-- NEG: the result is 0 exactly for 0, and the most negative value is the only one that is its own negative with the
sign kept. -/
theorem negAlu_eq (a : BitVec n) (f : Flags) : negAlu a f =
    (diffOf 0#n a false, { signFlags (diffOf 0#n a false) f with c := decide (a ≠ 0#n), pv := decide (a = BitVec.intMin n) }) := by
  have neg : -a = diffOf 0#n a false := by
    rw [← subR_eq_diffOf]
    simp [subR]
  have zero : (-a != 0#n) = decide (a ≠ 0#n) := by
    rw [Bool.eq_iff_iff]
    simp [BitVec.neg_eq_zero_iff]
  have least : (-a == BitVec.intMin n) = decide (a = BitVec.intMin n) := by
    rw [Bool.eq_iff_iff, beq_iff_eq, decide_eq_true_eq, BitVec.neg_eq_iff_eq_neg, BitVec.neg_intMin]
  rw [negAlu, ← neg, ← zero, ← least]
  rfl

end Sys2Proof.Machine
end

section
/-! The shapes of instructions that compute one value, write one destination and set flags: what they leave and what
they do not touch. -/

namespace Sys2Proof.Machine

variable {i : Instr} {s t : State} {slots : List (Fin 18)} {keys : List Nat} {P Q : State → Prop}

theorem RunsFrom.mono {base : State} (h : RunsFrom i s base slots keys P) (hPQ : ∀ t, P t → Q t) :
    RunsFrom i s base slots keys Q := by
  obtain ⟨t, next, frame, post⟩ := h
  exact ⟨t, next, frame, hPQ t post⟩

theorem Runs.mono (h : Runs i s slots keys P) (hPQ : ∀ t, P t → Q t) : Runs i s slots keys Q :=
  RunsFrom.mono h fun t ⟨seg, off, post⟩ => ⟨seg, off, hPQ t post⟩

/-- An instruction whose next state differs by flags and free values only. -/
theorem runs_setFlags {f : Flags} (next : exec i s = .next (s.setFlags f)) :
    Runs i s slots keys fun t => t.flags = f :=
  ⟨_, next, (Frame.refl s).setFlags f, rfl, rfl, rfl⟩

/-! ### A register destination -/

section
variable {d : RegField} {f : Flags}

theorem runs_writeB_setFlags {v : Byte} (next : exec i s = .next ((s.writeB d v).setFlags f)) :
    Runs i s [s.slotB d] [] fun t =>
      t.readB d = v ∧ t.readB (d ^^^ 8#4) = s.readB (d ^^^ 8#4) ∧ t.flags = f :=
  ⟨_, next, ((Frame.refl s).writeB (List.mem_singleton_self _) v).setFlags f, rfl, rfl,
    readB_writeB_self s d v, readB_writeB_other s d v, rfl⟩

theorem runs_writeW_setFlags {v : Word} (next : exec i s = .next ((s.writeW d v).setFlags f)) :
    Runs i s [s.slot d] [] fun t => t.readW d = v ∧ t.flags = f :=
  ⟨_, next, ((Frame.refl s).writeW (List.mem_singleton_self _) v).setFlags f, rfl, rfl, readW_writeW_self s d v, rfl⟩

theorem runs_writeL_setFlags {v : Long} (next : exec i s = .next ((s.writeL d v).setFlags f)) :
    Runs i s (s.slotsL d) [] fun t => t.readL d = v ∧ t.flags = f :=
  ⟨_, next, ((Frame.refl s).writeL (fun _ h => h) v).setFlags f, by simp⟩

theorem runs_writeQ_setFlags {v : Quad} (next : exec i s = .next ((s.writeQ d v).setFlags f)) :
    Runs i s (s.slotsQ d) [] fun t => t.readQ d = v ∧ t.flags = f :=
  ⟨_, next, ((Frame.refl s).writeQ (fun _ h => h) v).setFlags f, by simp⟩

theorem runs_writeB {v : Byte} (next : exec i s = .next (s.writeB d v)) :
    Runs i s [s.slotB d] [] fun t =>
      t.readB d = v ∧ t.readB (d ^^^ 8#4) = s.readB (d ^^^ 8#4) ∧ t.flags = s.flags :=
  runs_writeB_setFlags next

theorem runs_writeW {v : Word} (next : exec i s = .next (s.writeW d v)) :
    Runs i s [s.slot d] [] fun t => t.readW d = v ∧ t.flags = s.flags := runs_writeW_setFlags next

theorem runs_writeL {v : Long} (next : exec i s = .next (s.writeL d v)) :
    Runs i s (s.slotsL d) [] fun t => t.readL d = v ∧ t.flags = s.flags := runs_writeL_setFlags next

theorem runs_twoOpB {op : Alu 8} {src : Src 8} {b : Byte} (meaning : exec i s = finish (s.twoOpB op d src))
    (reads : s.srcB src = .ok b) : Runs i s [s.slotB d] [] fun t => t.readB d = (op (s.readB d) b s.flags).1 ∧
      t.readB (d ^^^ 8#4) = s.readB (d ^^^ 8#4) ∧ t.flags = (op (s.readB d) b s.flags).2 :=
  runs_writeB_setFlags (by rw [meaning, twoOpB_ok reads]; rfl)

theorem runs_twoOpW {op : Alu 16} {src : Src 16} {b : Word} (meaning : exec i s = finish (s.twoOpW op d src))
    (reads : s.srcW src = .ok b) : Runs i s [s.slot d] [] fun t => t.readW d = (op (s.readW d) b s.flags).1 ∧
      t.flags = (op (s.readW d) b s.flags).2 :=
  runs_writeW_setFlags (by rw [meaning, twoOpW_ok reads]; rfl)

theorem runs_twoOpL {op : Alu 32} {src : Src 32} {b : Long} (meaning : exec i s = finish (s.twoOpL op d src))
    (reads : s.srcL src = .ok b) : Runs i s (s.slotsL d) [] fun t => t.readL d = (op (s.readL d) b s.flags).1 ∧
      t.flags = (op (s.readL d) b s.flags).2 :=
  runs_writeL_setFlags (by rw [meaning, twoOpL_ok reads]; rfl)

end

/-! ### A memory destination -/

theorem runs_writeByte {a : Address} {v : Byte} (next : exec i s = .next (s.writeByte a v)) :
    Runs i s [] (a.bytes 1) fun t => t.readByte a = v ∧ t.flags = s.flags :=
  ⟨_, next, (Frame.refl s).writeByte (keyAt_zero a ▸ keyAt_mem_bytes a (by decide)) v, rfl, rfl,
    readByte_writeByte_self s a v, rfl⟩

theorem runs_pokeWord {a : Address} {v : Word} (next : exec i s = .next (s.pokeWord a v)) :
    Runs i s [] (a.bytes 2) fun t => t.peekWord a = v ∧ t.flags = s.flags :=
  ⟨_, next, (Frame.refl s).pokeWord (fun _ h => keyAt_mem_bytes a h) v, by simp⟩

theorem runs_pokeLong {a : Address} {v : Long} (next : exec i s = .next (s.pokeLong a v)) :
    Runs i s [] (a.bytes 4) fun t => t.peekLong a = v ∧ t.flags = s.flags :=
  ⟨_, next, (Frame.refl s).pokeLong (fun _ h => keyAt_mem_bytes a h) v, by simp⟩

/-! ### A destination in a register or in memory -/

@[simp] theorem setFlags_rm (s : State) (f : Flags) (x : RM) :
    (s.setFlags f).rmB x = s.rmB x ∧ (s.setFlags f).rmW x = s.rmW x := by
  cases x <;> exact ⟨rfl, rfl⟩

/-- What writing a byte destination leaves. -/
theorem runs_putB {x : RM} {v : Byte} {f : Flags}
    (next : ∀ t, s.putB x v = .ok t → exec i s = .next (t.setFlags f)) :
    Runs i s (s.rmSlotsB x) (s.rmBytes 1 x) fun t => t.rmB x = .ok v ∧ KeepsOther s t x ∧ t.flags = f := by
  have other (t : State) (put : s.putB x v = .ok t) : KeepsOther s (t.setFlags f) x :=
    fun g hg => by simpa using putB_keepsOther put g hg
  cases x with
  | r d =>
    exact ⟨_, next _ rfl, ((Frame.refl s).writeB (List.mem_singleton_self _) v).setFlags f, rfl, rfl,
      congrArg Except.ok (readB_writeB_self s d v), other _ rfl, rfl⟩
  | mem m =>
    have key : (s.ea m).key ∈ (s.ea m).bytes 1 := keyAt_zero (s.ea m) ▸ keyAt_mem_bytes _ (by decide)
    exact ⟨_, next _ rfl, ((Frame.refl s).writeByte key v).setFlags f, rfl, rfl,
      by simp [State.rmB, State.memB], other _ rfl, rfl⟩

/-- What writing a word destination leaves. -/
theorem runs_putW {x : RM} {a v : Word} {f : Flags} (reads : s.rmW x = .ok a)
    (next : ∀ t, s.putW x v = .ok t → exec i s = .next (t.setFlags f)) :
    Runs i s (s.rmSlotsW x) (s.rmBytes 2 x) fun t => t.rmW x = .ok v ∧ t.flags = f := by
  cases x with
  | r d =>
    exact ⟨_, next _ rfl, ((Frame.refl s).writeW (List.mem_singleton_self _) v).setFlags f, rfl, rfl,
      congrArg Except.ok (readW_writeW_self s d v), rfl⟩
  | mem m =>
    have even := (memW_ok.mp reads).1
    refine ⟨_, next _ (writeWord_even even), ((Frame.refl s).pokeWord (fun _ h => keyAt_mem_bytes _ h) v).setFlags f, ?_⟩
    simp [State.rmW, State.memW, readWord_even even]

theorem runs_oneOpB {op : Alu1 8} {x : RM} {a : Byte} (meaning : exec i s = finish (s.oneOpB op x))
    (reads : s.rmB x = .ok a) : Runs i s (s.rmSlotsB x) (s.rmBytes 1 x) fun t =>
      t.rmB x = .ok (op a s.flags).1 ∧ KeepsOther s t x ∧ t.flags = (op a s.flags).2 := by
  obtain ⟨t, put, one⟩ := oneOpB_ok (op := op) reads
  refine runs_putB fun u hu => ?_
  rw [meaning, one, Except.ok.inj (put.symm.trans hu)]
  rfl

theorem runs_oneOpW {op : Alu1 16} {x : RM} {a : Word} (meaning : exec i s = finish (s.oneOpW op x))
    (reads : s.rmW x = .ok a) : Runs i s (s.rmSlotsW x) (s.rmBytes 2 x) fun t =>
      t.rmW x = .ok (op a s.flags).1 ∧ t.flags = (op a s.flags).2 := by
  obtain ⟨t, put, one⟩ := oneOpW_ok (op := op) reads
  refine runs_putW reads fun u hu => ?_
  rw [meaning, one, Except.ok.inj (put.symm.trans hu)]
  rfl

theorem putB_flags {x : RM} {v : Byte} (put : s.putB x v = .ok t) : t.setFlags s.flags = t := by
  obtain ⟨f, rfl, rfl⟩ | ⟨m, rfl, rfl⟩ := putB_ok put <;> rfl

theorem putW_flags {x : RM} {v : Word} (put : s.putW x v = .ok t) : t.setFlags s.flags = t := by
  obtain ⟨f, rfl, rfl⟩ | ⟨m, rfl, _, rfl⟩ := putW_ok put <;> rfl

theorem runs_modifyB {op : Byte → Byte} {x : RM} {a : Byte} (meaning : exec i s = finish (modifyB op x s))
    (reads : s.rmB x = .ok a) : Runs i s (s.rmSlotsB x) (s.rmBytes 1 x) fun t =>
      t.rmB x = .ok (op a) ∧ KeepsOther s t x ∧ t.flags = s.flags := by
  refine runs_putB fun t put => ?_
  have modified : modifyB op x s = s.putB x (op a) := by rw [modifyB, reads]; rfl
  rw [meaning, modified, put, putB_flags put]
  rfl

theorem runs_modifyW {op : Word → Word} {x : RM} {a : Word} (meaning : exec i s = finish (modifyW op x s))
    (reads : s.rmW x = .ok a) : Runs i s (s.rmSlotsW x) (s.rmBytes 2 x) fun t =>
      t.rmW x = .ok (op a) ∧ t.flags = s.flags := by
  refine runs_putW reads fun t put => ?_
  have modified : modifyW op x s = s.putW x (op a) := by rw [modifyW, reads]; rfl
  rw [meaning, modified, put, putW_flags put]
  rfl

end Sys2Proof.Machine
end

section
/-! The register file, memory and effective addresses (10_state R20 to R23, 20_memory R71 to R84). -/

namespace Sys2Proof.Machine

/-! ### Registers -/

/-- A word register is its high byte, field `f`, followed by its low byte, field `f + 8`. -/
theorem readW_eq_bytes (s : State) {f : RegField} (high : f.getLsbD 3 = false) :
    s.readW f = s.readB f ++ s.readB (f + 8#4) := by
  have fields : byteHome f = f ∧ byteHome (f + 8#4) = f ∧ (f + 8#4).getLsbD 3 = true := by
    revert f
    decide
  obtain ⟨home, home', low⟩ := fields
  simp only [State.readB, high, low, home, home', if_true, Bool.false_eq_true, if_false, halves_eta]

/-- A byte register after another one is written: a register field other than `f` in the same word is its other byte. -/
theorem readB_writeB (s : State) (f g : RegField) (v : Byte) :
    (s.writeB f v).readB g = if g = f then v else s.readB g := by
  by_cases same : g = f
  · rw [same, if_pos rfl, readB_writeB_self]
  rw [if_neg same]
  by_cases other : g = f ^^^ 8#4
  · rw [other, readB_writeB_other]
  · have home : byteHome g ≠ byteHome f := by
      revert f g
      decide
    unfold State.readB State.writeB
    rw [readW_writeW_ne _ _ home]

theorem not_mem_pair {α : Type} {k x y : α} : k ∉ [x, y] ↔ k ≠ x ∧ k ≠ y := by simp

theorem writeL_get_of_not_mem (s : State) (f : RegField) (v : Long) {k : Fin 18} (h : k ∉ s.slotsL f) :
    (s.writeL f v).regs.get k = s.regs.get k := by
  obtain ⟨high, low⟩ := not_mem_pair.mp h
  exact writeL_get s f k v high low

theorem writeQ_get_of_not_mem (s : State) (f : RegField) (v : Quad) {k : Fin 18} (h : k ∉ s.slotsQ f) :
    (s.writeQ f v).regs.get k = s.regs.get k := by
  rw [State.slotsQ, List.mem_append, not_or] at h
  obtain ⟨h1, h2⟩ := not_mem_pair.mp h.1
  obtain ⟨h3, h4⟩ := not_mem_pair.mp h.2
  exact writeQ_get s f k v h1 h2 h3 h4

/-- The registers that S/N switches (10_state R22). -/
theorem regSlot_banked (v : Variant) (f : RegField) :
    (regSlot v true f = regSlot v false f ↔ ¬ (f = 15#4 ∨ (f = 14#4 ∧ v = .z8001))) ∧
      (systemSlot v (regSlot v true f) = true ↔ f = 15#4 ∨ (f = 14#4 ∧ v = .z8001)) := by
  cases v <;> (revert f; decide +kernel)

/-- Settles O17. -/
theorem registerFile : Obligations.RegisterFile := by
  refine ⟨fun s f k => ⟨readW_eq_bytes s, rfl, rfl, fun v => ⟨readB_writeB_self s f v, readB_writeB_other s f v, ?_⟩,
    fun v => ⟨readW_writeW_self s f v, fun ne => ?_⟩, fun v => ⟨readL_writeL_self s f v, writeL_get_of_not_mem s f v⟩,
    fun v => ⟨readQ_writeQ_self s f v, writeQ_get_of_not_mem s f v⟩⟩, fun v f g => ?_⟩
  · exact writeB_get s f k v
  · rw [writeW_get, if_neg ne]
  · obtain ⟨banked, system⟩ := regSlot_banked v f
    exact ⟨fun sn => regSlot_inj v sn f g, banked, systemSlot_normal v f, system⟩

/-! ### Memory -/

theorem append_append_bytes (a b c d : Byte) : (a ++ b) ++ (c ++ d) = a ++ b ++ c ++ d :=
  (BitVec.append_assoc (x₁ := a ++ b) (x₂ := c) (x₃ := d)).symm

/-- Every byte after a word is written. -/
theorem readByte_pokeWord (s : State) (a : Address) (x y : Word) (v : Word) :
    (s.pokeWord (a.add y) v).readByte (a.add x) =
      if x = y + 1#16 then v.extractLsb' 0 8 else if x = y then v.extractLsb' 8 8 else s.readByte (a.add x) := by
  have key {x y : Word} : (a.add x).key = (a.add y).key ↔ x = y := ⟨Address.add_inj, fun e => e ▸ rfl⟩
  unfold State.readByte
  rw [pokeWord_read, Address.add_add]
  simp only [key]

theorem pokeWord_bytes (s : State) (a : Address) (v : Word) :
    (s.pokeWord a v).readByte (a.add 0#16) = v.extractLsb' 8 8 ∧
      (s.pokeWord a v).readByte (a.add 1#16) = v.extractLsb' 0 8 := by
  have at_zero (x : Word) := readByte_pokeWord s a x 0#16 v
  rw [Address.add_zero] at at_zero
  exact ⟨at_zero 0#16, at_zero 1#16⟩

theorem pokeLong_bytes (s : State) (a : Address) (v : Long) :
    (s.pokeLong a v).readByte (a.add 0#16) = v.extractLsb' 24 8 ∧
      (s.pokeLong a v).readByte (a.add 1#16) = v.extractLsb' 16 8 ∧
      (s.pokeLong a v).readByte (a.add 2#16) = v.extractLsb' 8 8 ∧
      (s.pokeLong a v).readByte (a.add 3#16) = v.extractLsb' 0 8 := by
  obtain ⟨high, low⟩ := pokeWord_bytes s a (v.extractLsb' 16 16)
  have after (x : Word) := readByte_pokeWord (s.pokeWord a (v.extractLsb' 16 16)) a x 2#16 (v.extractLsb' 0 16)
  unfold State.pokeLong
  exact ⟨(after 0#16).trans (high.trans (slice_slice v (by decide))),
    (after 1#16).trans (low.trans (slice_slice v (by decide))),
    (after 2#16).trans (slice_slice v (by decide)), (after 3#16).trans (slice_slice v (by decide))⟩

theorem not_mem_bytes {a : Address} {n k : Nat} (h : k ∉ a.bytes n) {j : Nat} (hj : j < n) : k ≠ a.keyAt j :=
  fun e => h (e ▸ keyAt_mem_bytes a hj)

/-- Settles O18. -/
theorem memoryReadWrite : Obligations.MemoryReadWrite := by
  intro s a k byte
  have byte_zero (t : State) : byte t 0 = t.readByte a := congrArg t.readByte a.add_zero
  refine ⟨?_, ?_, ?_, fun _ => rfl, fun v => ⟨readByte_writeByte_self s a v, fun ne => ?_, writeByte_wf s a v⟩,
    fun v => ?_, fun v => ?_⟩
  · rw [byte_zero]
    rfl
  · rw [byte_zero, ← append_append_bytes, State.peekLong, State.peekWord, State.peekWord, Address.add_add]
    rfl
  · have first : s.peekWord (s.pcAddr.add 0#16) = s.peekWord s.pcAddr := congrArg s.peekWord s.pcAddr.add_zero
    rw [State.wordsAtPc, ← first]
    rfl
  · rw [writeByte_read, if_neg ne]
  · obtain ⟨high, low⟩ := pokeWord_bytes s a v
    exact ⟨high, low, peekWord_pokeWord_self s a v,
      fun h => pokeWord_frame s a v k (not_mem_bytes h (by decide)) (not_mem_bytes h (by decide)), pokeWord_wf s a v⟩
  · obtain ⟨b0, b1, b2, b3⟩ := pokeLong_bytes s a v
    exact ⟨b0, b1, b2, b3, peekLong_pokeLong_self s a v, fun h => pokeLong_frame s a v k (not_mem_bytes h (by decide))
      (not_mem_bytes h (by decide)) (not_mem_bytes h (by decide)) (not_mem_bytes h (by decide)), pokeLong_wf s a v⟩

/-! ### Effective addresses -/

theorem segmented_iff (s : State) : s.segmented = true ↔ s.cfg.variant = .z8001 ∧ s.fcw.seg = true := by
  rw [State.segmented, Bool.and_eq_true, beq_iff_eq]

theorem curSeg_z8001 {s : State} (h : s.cfg.variant = .z8001) : s.curSeg = s.pcSeg := by simp [State.curSeg, h]
theorem curSeg_z8002 {s : State} (h : s.cfg.variant = .z8002) : s.curSeg = 0#7 := by simp [State.curSeg, h]

theorem pointer_nonsegmented {s : State} (h : s.segmented = false) (r : RegField) :
    s.pointer r = { seg := s.curSeg, off := s.readW r } := by simp [State.pointer, h]

/-- In segmented mode a pointer is a pair: the segment number in bits 30 to 24, the offset in bits 15 to 0. -/
theorem pointer_segmented {s : State} (h : s.segmented = true) (r : RegField) :
    s.pointer r = { seg := (s.readL r).extractLsb' 24 7, off := (s.readL r).extractLsb' 0 16 } := by
  have seg : (s.readL r).extractLsb' 24 7 = (s.readW r).extractLsb' 8 7 := by
    rw [← append_high16 (s.readW r) (s.readW (r + 1#4))]
    exact (slice_slice (s.readL r) (start := 16) (len := 16) (k := 8) (n := 7) (by decide)).symm
  have off : (s.readL r).extractLsb' 0 16 = s.readW (r + 1#4) := append_low16 _ _
  rw [seg, off, State.pointer, if_pos h]

theorem offField_nonsegmented {s : State} (h : s.segmented = false) (r : RegField) : s.offField r = r := by
  simp [State.offField, h]
theorem offField_segmented {s : State} (h : s.segmented = true) (r : RegField) : s.offField r = r + 1#4 := by
  simp [State.offField, h]

/-- The offset of the short form, 8 bits extended by zeros (20_memory R83). -/
theorem setWidth_eq_append (b : BitVec 8) : b.setWidth 16 = 0#8 ++ b := by
  revert b
  decide +kernel

/-- Settles O19. -/
theorem effectiveAddress : Obligations.EffectiveAddress := by
  intro s r i d o g b here pair word long
  refine ⟨segmented_iff s, curSeg_z8001, curSeg_z8002, rfl, rfl, fun _ => rfl, fun hs => ?_, fun hs => ?_, rfl, rfl, rfl,
    rfl, rfl, rfl, fun _ => rfl, fun _ => rfl, fun _ => rfl, fun _ => ⟨rfl, rfl, rfl, rfl, rfl, rfl⟩, rfl, rfl⟩
  · have p := pointer_nonsegmented hs r
    refine ⟨by simp [State.stackField, hs], offField_nonsegmented hs r, by simp [State.pointerFields, hs], p, p, rfl, rfl,
      ?_, ?_, rfl, rfl, ?_, ?_⟩ <;> simp only [State.eaB, State.eaSrc, p] <;> rfl
  · have p := pointer_segmented hs r
    have short := setWidth_eq_append b
    refine ⟨by simp [State.stackField, hs], offField_segmented hs r, by simp [State.pointerFields, hs], p, p, ?_, rfl,
      ?_, rfl, ?_, ?_, ?_, rfl, ?_, rfl, ?_, ?_⟩ <;>
      simp only [State.ea, State.eaB, State.eaSrc, State.addrOf, p, short] <;> rfl

end Sys2Proof.Machine
end

section
/-! Load and exchange (40_load_exchange R201 to R207): loads into registers, stores into memory, exchanges and address
loads. -/

namespace Sys2Proof.Machine

/-! ### Loads -/

/-- Settles O23: each is a write of the byte register with a source that is read first. -/
theorem loadByte : Obligations.LoadByte := by
  intro s d v disp post
  exact ⟨fun f => runs_writeB rfl, runs_writeB rfl, fun m => runs_writeB rfl, runs_writeB rfl, runs_writeB rfl⟩

/-- Settles O24: a memory operand at an even address is read, then the register or pair is written. -/
theorem loadWordLong : Obligations.LoadWordLong := by
  intro s d disp rel postW postL
  have wordLoad {i : Instr} {a : Address} (even : a.even = true)
      (meaning : exec i s = finish (s.readWord a >>= fun v => .ok (s.writeW d v))) :
      exec i s = .next (s.writeW d (s.peekWord a)) := by
    rw [meaning, readWord_even even]
    rfl
  have longLoad {i : Instr} {a : Address} (even : a.even = true)
      (meaning : exec i s = finish (s.readLong a >>= fun v => .ok (s.writeL d v))) :
      exec i s = .next (s.writeL d (s.peekLong a)) := by
    rw [meaning, readLong_even even]
    rfl
  refine ⟨fun f => runs_writeW rfl, fun v => runs_writeW rfl, fun m even => runs_writeW (wordLoad even rfl),
    fun v => runs_writeW ?_, fun even => runs_writeW (wordLoad even rfl), fun f => runs_writeL rfl,
    fun v => runs_writeL rfl, fun m even => runs_writeL (longLoad even rfl),
    fun even => runs_writeL (longLoad even rfl)⟩
  have zeroExtended : v.setWidth 16 = 0#12 ++ v := by
    revert v
    decide
  rw [← zeroExtended]
  rfl

/-! ### Stores -/

/-- Settles O25. -/
theorem storeMemory : Obligations.StoreMemory := by
  intro s f disp rel postB postW postL
  have wordStore {i : Instr} {a : Address} {v : Word} (even : a.even = true)
      (meaning : exec i s = finish (s.writeWord a v)) : exec i s = .next (s.pokeWord a v) := by
    rw [meaning, writeWord_even even]
    rfl
  have longStore {i : Instr} {a : Address} {v : Long} (even : a.even = true)
      (meaning : exec i s = finish (s.writeLong a v)) : exec i s = .next (s.pokeLong a v) := by
    rw [meaning, writeLong_even even]
    rfl
  exact ⟨fun m => runs_writeByte rfl, fun m v => runs_writeByte rfl, runs_writeByte rfl,
    fun m even => runs_pokeWord (wordStore even rfl), fun m v even => runs_pokeWord (wordStore even rfl),
    fun even => runs_pokeWord (wordStore even rfl), fun m even => runs_pokeLong (longStore even rfl),
    fun even => runs_pokeLong (longStore even rfl)⟩

/-! ### Clear and exchange -/

/-- EXB of two byte registers. -/
theorem runs_exb_register (s : State) (d f : RegField) : Runs (.exb d (.r f)) s [s.slotB d, s.slotB f] [] fun t =>
    t.readB d = s.readB f ∧ t.readB f = s.readB d ∧ t.flags = s.flags ∧
      (f ≠ d ^^^ 8#4 → t.readB (d ^^^ 8#4) = s.readB (d ^^^ 8#4) ∧ t.readB (f ^^^ 8#4) = s.readB (f ^^^ 8#4)) := by
  have otherByte (apart : f ≠ d ^^^ 8#4) : f ^^^ 8#4 ≠ d := by
    revert d f
    decide
  have frame : Frame s ((s.writeB f (s.readB d)).writeB d (s.readB f)) [s.slotB d, s.slotB f] [] :=
    ((Frame.refl s).writeB (by simp) _).writeB (by simp) _
  refine ⟨_, rfl, frame, rfl, rfl, readB_writeB_self .., ?_, rfl, fun apart => ⟨?_, ?_⟩⟩
  · rw [readB_writeB, readB_writeB_self, ite_eq_right_iff]
    rintro rfl
    rfl
  · rw [readB_writeB_other, readB_writeB, if_neg (Ne.symm apart)]
  · rw [readB_writeB, if_neg (otherByte apart), readB_writeB_other]

/-- EX of two word registers. -/
theorem runs_ex_register (s : State) (d f : RegField) : Runs (.ex d (.r f)) s [s.slot d, s.slot f] [] fun t =>
    t.readW d = s.readW f ∧ t.readW f = s.readW d ∧ t.flags = s.flags := by
  have frame : Frame s ((s.writeW f (s.readW d)).writeW d (s.readW f)) [s.slot d, s.slot f] [] :=
    ((Frame.refl s).writeW (by simp) _).writeW (by simp) _
  refine ⟨_, rfl, frame, rfl, rfl, readW_writeW_self .., ?_, rfl⟩
  rw [readW_writeW, readW_writeW_self, ite_eq_right_iff]
  rintro rfl
  rfl

/-- EXB with memory. -/
theorem runs_exb_memory (s : State) (d : RegField) (m : Mem) :
    Runs (.exb d (.mem m)) s [s.slotB d] ((s.ea m).bytes 1) fun t =>
      t.readB d = s.readByte (s.ea m) ∧ t.readByte (s.ea m) = s.readB d ∧
        t.readB (d ^^^ 8#4) = s.readB (d ^^^ 8#4) ∧ t.flags = s.flags := by
  have key : (s.ea m).key ∈ (s.ea m).bytes 1 := keyAt_zero (s.ea m) ▸ keyAt_mem_bytes _ (by decide)
  have frame : Frame s ((s.writeByte (s.ea m) (s.readB d)).writeB d (s.readByte (s.ea m))) [s.slotB d]
      ((s.ea m).bytes 1) := ((Frame.refl s).writeByte key _).writeB (by simp) _
  exact ⟨_, rfl, frame, by simp [readB_writeB_other]⟩

/-- EX with memory at an even address. -/
theorem runs_ex_memory (s : State) (d : RegField) (m : Mem) (even : (s.ea m).even = true) :
    Runs (.ex d (.mem m)) s [s.slot d] ((s.ea m).bytes 2) fun t =>
      t.readW d = s.peekWord (s.ea m) ∧ t.peekWord (s.ea m) = s.readW d ∧ t.flags = s.flags := by
  have frame : Frame s ((s.pokeWord (s.ea m) (s.readW d)).writeW d (s.peekWord (s.ea m))) [s.slot d]
      ((s.ea m).bytes 2) := ((Frame.refl s).pokeWord (fun _ h => keyAt_mem_bytes _ h) _).writeW (by simp) _
  have next : exec (.ex d (.mem m)) s = .next ((s.pokeWord (s.ea m) (s.readW d)).writeW d (s.peekWord (s.ea m))) := by
    show finish (s.readWord (s.ea m) >>= fun v => s.writeWord (s.ea m) (s.readW d) >>= fun t => .ok (t.writeW d v)) = _
    rw [readWord_even even, writeWord_even even]
    rfl
  exact ⟨_, next, frame, by simp⟩

/-- Settles O26. -/
theorem clearExchange : Obligations.ClearExchange := by
  intro s d
  refine ⟨fun x => runs_putB fun t put => ?_, fun x a reads => runs_putW reads fun t put => ?_,
    runs_exb_register s d, runs_exb_memory s d, runs_ex_register s d, runs_ex_memory s d⟩
  · rw [putB_flags put]
    exact finish_next.mpr put
  · rw [putW_flags put]
    exact finish_next.mpr put

/-! ### Addresses -/

theorem runs_lda_nonsegmented {s : State} (hs : s.segmented = false) (d : RegField) {src : EaSrc} {off : Word}
    (address : (s.eaSrc src).off = off) : Runs (.lda d src) s [s.slot d] [] fun t => t.readW d = off ∧ t.flags = s.flags := by
  have loads : loadAddress d (s.eaSrc src) (s.fresh 0 1) (s.fresh 1 8) s = s.writeW d off := by
    rw [loadAddress, hs, address]
    rfl
  have next : exec (.lda d src) s = .next ((s.writeW d off).took 2) := by
    rw [← loads]
    rfl
  exact ⟨_, next, ((Frame.refl s).writeW (List.mem_singleton_self _) off).took 2, by simp⟩

/-- The four fields of a segmented address in a pair (10_state R25). -/
theorem segmentedAddress_fields (hi : BitVec 1) (seg : BitVec 7) (mid : BitVec 8) (off : Word) :
    (hi ++ seg ++ mid ++ off).extractLsb' 24 7 = seg ∧ (hi ++ seg ++ mid ++ off).extractLsb' 0 16 = off :=
  ⟨(BitVec.extractLsb'_append_eq_of_le (by decide)).trans <| (BitVec.extractLsb'_append_eq_of_le (by decide)).trans
    BitVec.extractLsb'_append_eq_right, BitVec.extractLsb'_append_eq_right⟩

theorem runs_lda_segmented {s : State} (hs : s.segmented = true) (d : RegField) {src : EaSrc} {a : Address}
    (address : s.eaSrc src = a) : Runs (.lda d src) s (s.slotsL d) [] fun t =>
      (t.readL d).extractLsb' 24 7 = a.seg ∧ (t.readL d).extractLsb' 0 16 = a.off ∧ t.flags = s.flags := by
  have loads : loadAddress d (s.eaSrc src) (s.fresh 0 1) (s.fresh 1 8) s =
      s.writeL d (s.fresh 0 1 ++ a.seg ++ s.fresh 1 8 ++ a.off) := by
    rw [loadAddress, hs, address]
    rfl
  have next : exec (.lda d src) s =
      .next ((s.writeL d (s.fresh 0 1 ++ a.seg ++ s.fresh 1 8 ++ a.off)).took 2) := by
    rw [← loads]
    rfl
  obtain ⟨seg, off⟩ := segmentedAddress_fields (s.fresh 0 1) a.seg (s.fresh 1 8) a.off
  refine ⟨_, next, ((Frame.refl s).writeL (fun _ h => h) _).took 2, by simp, by simp, ?_, ?_, by simp⟩
  · rw [(took_registers _ _).2.2.1, readL_writeL_self, seg]
  · rw [(took_registers _ _).2.2.1, readL_writeL_self, off]

end Sys2Proof.Machine

namespace Sys2Proof
open Machine

/-- Settles O27. -/
theorem loadAddress : Obligations.LoadAddress := by
  intro s d b i o disp g o8
  refine ⟨fun hs => ?_, fun hs => ?_⟩
  · have base := pointer_nonsegmented hs b
    refine ⟨runs_lda_nonsegmented hs d rfl, runs_lda_nonsegmented hs d rfl, runs_lda_nonsegmented hs d ?_,
      runs_lda_nonsegmented hs d ?_, runs_writeW ?_⟩
    · rw [State.eaSrc, base]
      rfl
    · rw [State.eaSrc, base]
      rfl
    · show Host.Outcome.next (Machine.loadAddress d (s.eaRel disp) 0#1 0#8 s) = _
      rw [Machine.loadAddress, hs]
      rfl
  · intro gives baseSeg baseOff
    have base := pointer_segmented hs b
    have short := setWidth_eq_append o8
    have z1 := ((segmented_iff s).mp hs).1
    refine ⟨runs_lda_segmented hs d (a := { seg := g, off := 0#8 ++ o8 }) ?_, runs_lda_segmented hs d rfl,
      runs_lda_segmented hs d (a := { seg := g, off := (0#8 ++ o8) + s.readW i }) ?_, runs_lda_segmented hs d rfl,
      runs_lda_segmented hs d (a := { seg := baseSeg, off := baseOff + disp }) ?_,
      runs_lda_segmented hs d (a := { seg := baseSeg, off := baseOff + s.readW i }) ?_, runs_writeL ?_⟩
    · rw [← short]
      rfl
    · rw [← short]
      rfl
    · rw [State.eaSrc, base]
      rfl
    · rw [State.eaSrc, base]
      rfl
    · show Host.Outcome.next (Machine.loadAddress d (s.eaRel disp) 0#1 0#8 s) = _
      rw [Machine.loadAddress, hs, ← curSeg_z8001 z1]
      rfl

end Sys2Proof
end

section
/-! Arithmetic, logical and bit instructions (41_arithmetic R252 to R264, 42_logical, 44_bit_manipulation). -/

namespace Sys2Proof.Machine

variable {i : Instr} {s : State} {f : Flags}

/-! ### Addition, subtraction, comparison -/

/-- Settles O31: the two-operand shape with the sums and differences of R250. -/
theorem addSubWordLong : Obligations.AddSubWordLong := by
  intro s d f a c
  have h16 : 0 < 16 := by decide
  have h32 : 0 < 32 := by decide
  refine ⟨fun src b reads => ⟨?_, ?_⟩, ?_, ?_, fun src b reads => ⟨?_, ?_⟩⟩
  · exact (runs_twoOpW rfl reads).mono fun t h => by rwa [addAlu_eq h16] at h
  · exact (runs_twoOpW rfl reads).mono fun t h => by rwa [subAlu_eq h16] at h
  · exact (runs_twoOpW (src := .r f) rfl rfl).mono fun t h => by rwa [adcAlu, addAlu_eq h16] at h
  · exact (runs_twoOpW (src := .r f) rfl rfl).mono fun t h => by rwa [sbcAlu, subAlu_eq h16] at h
  · exact (runs_twoOpL rfl reads).mono fun t h => by rwa [addAlu_eq h32] at h
  · exact (runs_twoOpL rfl reads).mono fun t h => by rwa [subAlu_eq h32] at h

/-- Settles O32. -/
theorem addSubByte : Obligations.AddSubByte := by
  intro s d f src b reads a c y post addH subH
  refine ⟨?_, ?_, ?_, ?_⟩
  · exact (runs_twoOpB rfl reads).mono fun t h => by rwa [addAluB_eq] at h
  · exact (runs_twoOpB rfl reads).mono fun t h => by rwa [subAluB_eq] at h
  · exact (runs_twoOpB (src := .r f) rfl rfl).mono fun t h => by rwa [adcAluB, addAluB_eq] at h
  · exact (runs_twoOpB (src := .r f) rfl rfl).mono fun t h => by rwa [sbcAluB, subAluB_eq] at h

/-- A comparison of two values that are read. -/
theorem runs_compare {n : Nat} (hn : 0 < n) {a b : BitVec n} (next : exec i s = .next (s.compareOp a b)) :
    Runs i s [] [] fun t => t.flags = diffFlags a b false s.flags :=
  runs_setFlags (by rw [next, State.compareOp, subAlu_eq hn])

/-- Settles O33. -/
theorem compareSetsFlags : Obligations.CompareSetsFlags := by
  intro s d
  refine ⟨fun src b reads => runs_compare (by decide) ?_, fun src b reads => runs_compare (by decide) ?_,
    fun src b reads => runs_compare (by decide) ?_, fun m v => runs_compare (by decide) rfl,
    fun m v even => runs_compare (by decide) ?_⟩
  · show finish (s.srcB src >>= _) = _
    rw [reads]
    rfl
  · show finish (s.srcW src >>= _) = _
    rw [reads]
    rfl
  · show finish (s.srcL src >>= _) = _
    rw [reads]
    rfl
  · show finish (s.memW m >>= _) = _
    rw [memW_ok.mpr ⟨even, rfl⟩]
    rfl

/-- Settles O34. -/
theorem incDecNeg : Obligations.IncDecNeg := by
  intro s x num
  refine ⟨fun a reads => ⟨?_, ?_, ?_⟩, fun a reads => ⟨?_, ?_, ?_⟩⟩
  · exact (runs_oneOpB rfl reads).mono fun t h => by rwa [incAlu_eq (by decide)] at h
  · exact (runs_oneOpB rfl reads).mono fun t h => by rwa [decAlu_eq (by decide)] at h
  · exact (runs_oneOpB rfl reads).mono fun t h => by rwa [negAlu_eq] at h
  · exact (runs_oneOpW rfl reads).mono fun t h => by rwa [incAlu_eq (by decide)] at h
  · exact (runs_oneOpW rfl reads).mono fun t h => by rwa [decAlu_eq (by decide)] at h
  · exact (runs_oneOpW rfl reads).mono fun t h => by rwa [negAlu_eq] at h

/-! ### Extension and multiplication -/

/-- Settles O36: sign extension keeps the signed value. -/
theorem extendSign : Obligations.ExtendSign := by
  intro s d
  have lowWord : (s.readL d).extractLsb' 0 16 = s.readW (d + 1#4) := append_low16 _ _
  have lowLong : (s.readQ d).extractLsb' 0 32 = s.readL (d + 2#4) := BitVec.extractLsb'_append_eq_right
  refine ⟨(runs_writeW rfl).mono fun t ⟨value, flags⟩ => ⟨?_, flags⟩,
    (runs_writeL rfl).mono fun t ⟨value, flags⟩ => ⟨?_, flags⟩,
    (runs_writeQ_setFlags (f := s.flags) rfl).mono fun t ⟨value, flags⟩ => ⟨?_, flags⟩⟩
  · rw [value, BitVec.toInt_signExtend_of_le (by decide)]
  · rw [value, BitVec.toInt_signExtend_of_le (by decide), lowWord]
  · rw [value, BitVec.toInt_signExtend_of_le (by decide), lowLong]

/-- The product of two signed `n`-bit values fits in `2 * n` bits. -/
theorem toInt_ofInt_mul {n : Nat} (hn : 0 < n) (a b : BitVec n) :
    (BitVec.ofInt (2 * n) (a.toInt * b.toInt)).toInt = a.toInt * b.toInt := by
  have square : (2 : Int) ^ (2 * n - 1) = 2 * (2 ^ (n - 1) * 2 ^ (n - 1)) := by
    rw [← pow_add, ← pow_succ']
    congr 1
    omega
  have positive : (0 : Int) < 2 ^ (n - 1) := by positivity
  have bound : |a.toInt * b.toInt| ≤ 2 ^ (n - 1) * 2 ^ (n - 1) := by
    rw [abs_mul]
    exact mul_le_mul (abs_le.mpr ⟨BitVec.le_toInt a, a.toInt_lt.le⟩) (abs_le.mpr ⟨BitVec.le_toInt b, b.toInt_lt.le⟩)
      (abs_nonneg _) positive.le
  obtain ⟨lower, upper⟩ := abs_le.mp bound
  have room : (0 : Int) < 2 ^ (n - 1) * 2 ^ (n - 1) := mul_pos positive positive
  exact BitVec.toInt_ofInt_eq_self (by omega) (by omega) (by omega)

/-- Settles O37. -/
theorem multiplyExactProduct : Obligations.MultiplyExactProduct := by
  intro s d
  refine ⟨fun src b reads => ?_, fun src b reads => ?_⟩
  · intro p
    have next : exec (.mult d src) s = .next ((s.writeL d (BitVec.ofInt 32 p)).setFlags (mulFlags 16 p s.flags)) := by
      show finish (s.srcW src >>= _) = _
      rw [reads]
      rfl
    exact (runs_writeL_setFlags next).mono fun t ⟨value, flags⟩ =>
      ⟨value ▸ toInt_ofInt_mul (by decide) (s.readW (d + 1#4)) b, flags⟩
  · intro p
    have next : exec (.multl d src) s = .next ((s.writeQ d (BitVec.ofInt 64 p)).setFlags (mulFlags 32 p s.flags)) := by
      show finish (s.srcL src >>= _) = _
      rw [reads]
      rfl
    exact (runs_writeQ_setFlags next).mono fun t ⟨value, flags⟩ =>
      ⟨value ▸ toInt_ofInt_mul (by decide) (s.readL (d + 2#4)) b, flags⟩

/-! ### Logical -/

theorem logicFlagsB_eq (r : Byte) (f : Flags) : logicFlagsB r f = { signFlags r f with pv := evenOnes r } := by
  rw [logicFlagsB, parityEven_eq]
  rfl

/-- Settles O39: the bits of the three operations, and the flags of their result. -/
theorem logicalTwoOperand : Obligations.LogicalTwoOperand := by
  intro s d postB postW
  have byte {i : Instr} {src : Src 8} {b : Byte} {op : Byte → Byte → Byte} {bit : Bool → Bool → Bool}
      (bits : ∀ x y j, (op x y).getLsbD j = bit (x.getLsbD j) (y.getLsbD j)) (reads : s.srcB src = .ok b)
      (meaning : exec i s = finish (s.twoOpB (fun a b f => (op a b, logicFlagsB (op a b) f)) d src)) :
      Runs i s [s.slotB d] [] (postB bit b) :=
    (runs_twoOpB meaning reads).mono fun t ⟨value, other, flags⟩ =>
      ⟨fun j _ => value ▸ bits _ _ j, other, by rw [flags, value, logicFlagsB_eq]⟩
  have word {i : Instr} {src : Src 16} {b : Word} {op : Word → Word → Word} {bit : Bool → Bool → Bool}
      (bits : ∀ x y j, (op x y).getLsbD j = bit (x.getLsbD j) (y.getLsbD j)) (reads : s.srcW src = .ok b)
      (meaning : exec i s = finish (s.twoOpW (fun a b f => (op a b, logicFlags (op a b) f)) d src)) :
      Runs i s [s.slot d] [] (postW bit b) :=
    (runs_twoOpW meaning reads).mono fun t ⟨value, flags⟩ =>
      ⟨fun j _ => value ▸ bits _ _ j, by rw [flags, value]; rfl⟩
  exact ⟨fun src b reads => ⟨byte (fun x y j => BitVec.getLsbD_and) reads rfl,
      byte (fun x y j => BitVec.getLsbD_or) reads rfl, byte (fun x y j => BitVec.getLsbD_xor) reads rfl⟩,
    fun src b reads => ⟨word (fun x y j => BitVec.getLsbD_and) reads rfl,
      word (fun x y j => BitVec.getLsbD_or) reads rfl, word (fun x y j => BitVec.getLsbD_xor) reads rfl⟩⟩

/-- Settles O40. -/
theorem complementTest : Obligations.ComplementTest := by
  intro s x
  refine ⟨fun a reads => ⟨?_, ?_⟩, fun a reads => ⟨runs_oneOpW (op := comAlu) rfl reads, runs_setFlags ?_⟩,
    fun a reads => ?_⟩
  · exact (runs_oneOpB rfl reads).mono fun t ⟨value, other, flags⟩ => ⟨value, other, flags.trans (logicFlagsB_eq _ _)⟩
  · refine runs_setFlags ?_
    rw [← logicFlagsB_eq]
    show finish (s.rmB x >>= _) = _
    rw [reads]
    rfl
  · show finish (s.rmW x >>= _) = _
    rw [reads]
    rfl
  · have next : exec (.testl x) s =
        .next ((s.setFlags { logicFlags a s.flags with pv := s.freshBit 0 }).took 1) := by
      show finish (s.rmL x >>= _) = _
      rw [reads]
      rfl
    exact ⟨_, next, ((Frame.refl s).setFlags _).took 1, rfl, rfl, s.freshBit 0, rfl⟩

/-! ### Bits -/

theorem getLsbD_clearBit {n : Nat} (v : BitVec n) (b : Nat) {j : Nat} (hj : j < n) :
    (clearBit v b).getLsbD j = if j = b then false else v.getLsbD j := by
  by_cases e : b = j
  · simp [clearBit, e, hj]
  · simp [clearBit, hj, Ne.symm e]

theorem getLsbD_setBit {n : Nat} (v : BitVec n) (b : Nat) {j : Nat} (hj : j < n) :
    (setBit v b).getLsbD j = if j = b then true else v.getLsbD j := by
  by_cases e : b = j
  · simp [setBit, e, hj]
  · simp [setBit, e, Ne.symm e]

/-- Settles O43. -/
theorem bitInstructions : Obligations.BitInstructions := by
  intro s x d f num bitsB bitsW
  refine ⟨fun a reads small => ?_, fun a reads => ⟨runs_setFlags ?_, ?_, ?_⟩, runs_setFlags rfl, runs_setFlags rfl,
    ?_, ?_, ?_, ?_⟩
  · have number : bitNoB num = num.toNat := Nat.mod_eq_of_lt small
    refine ⟨runs_setFlags ?_, ?_, ?_⟩
    · show finish (s.rmB x >>= fun a => .ok (testBit a (bitNoB num) s)) = _
      rw [reads, number]
      rfl
    · exact (runs_modifyB rfl reads).mono fun t ⟨value, other, flags⟩ =>
        ⟨flags, other, _, value, fun j hj => number ▸ getLsbD_clearBit a _ hj⟩
    · exact (runs_modifyB rfl reads).mono fun t ⟨value, other, flags⟩ =>
        ⟨flags, other, _, value, fun j hj => number ▸ getLsbD_setBit a _ hj⟩
  · show finish (s.rmW x >>= _) = _
    rw [reads]
    rfl
  · exact (runs_modifyW rfl reads).mono fun t ⟨value, flags⟩ =>
      ⟨flags, _, value, fun j hj => getLsbD_clearBit a _ hj⟩
  · exact (runs_modifyW rfl reads).mono fun t ⟨value, flags⟩ =>
      ⟨flags, _, value, fun j hj => getLsbD_setBit a _ hj⟩
  · exact (runs_modifyB (op := fun v => clearBit v (s.dynBitB f)) (x := .r d) rfl rfl).mono fun t ⟨value, other, flags⟩ =>
      ⟨flags, other d rfl, fun j hj => Except.ok.inj value ▸ getLsbD_clearBit _ _ hj⟩
  · exact (runs_modifyB (op := fun v => setBit v (s.dynBitB f)) (x := .r d) rfl rfl).mono fun t ⟨value, other, flags⟩ =>
      ⟨flags, other d rfl, fun j hj => Except.ok.inj value ▸ getLsbD_setBit _ _ hj⟩
  · exact (runs_modifyW (op := fun v => clearBit v (s.dynBitW f)) (x := .r d) rfl rfl).mono fun t ⟨value, flags⟩ =>
      ⟨flags, fun j hj => Except.ok.inj value ▸ getLsbD_clearBit _ _ hj⟩
  · exact (runs_modifyW (op := fun v => setBit v (s.dynBitW f)) (x := .r d) rfl rfl).mono fun t ⟨value, flags⟩ =>
      ⟨flags, fun j hj => Except.ok.inj value ▸ getLsbD_setBit _ _ hj⟩

/-- Bit 0 set by a condition that holds. -/
theorem getLsbD_setBit_zero {n : Nat} (v : BitVec n) {j : Nat} (hj : j < n) :
    (setBit v 0).getLsbD j = (v.getLsbD j || (decide (j = 0) && true)) := by
  rw [getLsbD_setBit v 0 hj]
  by_cases e : j = 0 <;> simp [e]

/-- Settles O44. -/
theorem testSet : Obligations.TestSet := by
  intro s x d cc
  refine ⟨?_, ?_, fun a reads => runs_oneOpB (op := fun a f => (0xFF#8, { f with s := a.msb })) rfl reads,
    fun a reads => runs_oneOpW (op := fun a f => (0xFFFF#16, { f with s := a.msb })) rfl reads⟩
  · have meaning : exec (.tccb cc d) s = .next (if cond cc s.flags then s.writeB d (setBit (s.readB d) 0) else s) := rfl
    cases holds : cond cc s.flags with
    | true =>
      rw [holds] at meaning
      exact (runs_writeB meaning).mono fun t ⟨value, other, flags⟩ =>
        ⟨flags, other, fun j hj => value ▸ getLsbD_setBit_zero _ hj⟩
    | false =>
      rw [holds] at meaning
      exact ⟨s, meaning, Frame.refl s, rfl, rfl, rfl, rfl, fun j _ => by simp⟩
  · have meaning : exec (.tcc cc d) s = .next (if cond cc s.flags then s.writeW d (setBit (s.readW d) 0) else s) := rfl
    cases holds : cond cc s.flags with
    | true =>
      rw [holds] at meaning
      exact (runs_writeW meaning).mono fun t ⟨value, flags⟩ =>
        ⟨flags, fun j hj => value ▸ getLsbD_setBit_zero _ hj⟩
    | false =>
      rw [holds] at meaning
      exact ⟨s, meaning, Frame.refl s, rfl, rfl, rfl, fun j _ => by simp⟩

end Sys2Proof.Machine
end

section
/-! Taking and leaving a trap or an interrupt (60_exceptions R610 to R623, 43_program_control R324): the words pushed
on the system stack, the words popped from it, and the state after both. -/

namespace Sys2Proof.Machine

/-! ### Words on a stack -/

/-- Adding an even number to an address keeps it even or odd. -/
theorem even_add (a : Address) {k : Word} (hk : k.getLsbD 0 = false) : (a.add k).even = a.even := by
  have low (x : Word) : x.getLsbD 0 = decide (x.toNat % 2 = 1) := Nat.testBit_zero _
  have evenStep : k.toNat % 2 = 0 := by
    rw [low, decide_eq_false_iff_not] at hk
    omega
  have parity : (a.off + k).getLsbD 0 = a.off.getLsbD 0 := by
    rw [low, low, decide_eq_decide, BitVec.toNat_add]
    omega
  exact congrArg (· == false) parity

/-- From `u` to `t` the words `ws` were pushed by `sp`, the last one pushed first in the list. -/
structure Pushed (u t : State) (sp : RegField) (ws : List Word) : Prop where
  frame : Frame u t [u.slot (u.offField sp)] ((t.pointer sp).bytes (2 * ws.length))
  pointer : t.pointer sp = (u.pointer sp).add (-BitVec.ofNat 16 (2 * ws.length))
  words : ∀ j (h : j < ws.length), t.peekWord ((t.pointer sp).add (BitVec.ofNat 16 (2 * j))) = ws[j]
  pcSeg : t.pcSeg = u.pcSeg
  pcOff : t.pcOff = u.pcOff

namespace Pushed
variable {u t : State} {sp : RegField} {ws : List Word}

theorem nil (u : State) (sp : RegField) : Pushed u u sp [] :=
  ⟨.refl u, (Address.add_zero _).symm, nofun, rfl, rfl⟩

/-- An even stack pointer stays even. -/
theorem even (h : Pushed u t sp ws) (even : (u.pointer sp).even = true) : (t.pointer sp).even = true := by
  rw [h.pointer, even_add _ ?_, even]
  have low : (-BitVec.ofNat 16 (2 * ws.length)).toNat % 2 = 0 := by
    rw [BitVec.toNat_neg, BitVec.toNat_ofNat]
    omega
  exact (Nat.testBit_zero _).trans (decide_eq_false (by omega))

theorem push (h : Pushed u t sp ws) (even : (u.pointer sp).even = true) (few : ws.length < 16) (v : Word) :
    ∃ t', t.pushWord sp v = .ok t' ∧ Pushed u t' sp (v :: ws) := by
  obtain ⟨p, place⟩ : ∃ p, (t.pointer sp).add (-2#16) = p := ⟨_, rfl⟩
  have evenStep : p.even = true := by rw [← place, even_add _ (by decide), h.even even]
  have top : t.pointer sp = p.add 2#16 := by
    rw [← place, Address.add_add]
    exact (Address.add_zero _).symm
  have pointer' : ((t.stepPointer sp (-2#16)).pokeWord p v).pointer sp = p := by
    rw [(pokeWord_registers _ _ _).2.2.2.2.1, pointer_stepPointer, place]
  have above (j : Nat) : p.add (BitVec.ofNat 16 (2 * (j + 1))) = (t.pointer sp).add (BitVec.ofNat 16 (2 * j)) := by
    rw [top, Address.add_add, Nat.mul_succ, Nat.add_comm, BitVec.ofNat_add]
  refine ⟨(t.stepPointer sp (-2#16)).pokeWord p v, ?_, ?_, ?_, fun j hj => ?_, ?_, ?_⟩
  · rw [State.pushWord, pointer_stepPointer, place, writeWord_even evenStep]
  · rw [pointer', List.length_cons]
    have old : ∀ k ∈ (t.pointer sp).bytes (2 * ws.length), k ∈ p.bytes (2 * (ws.length + 1)) := by
      rintro k hk
      obtain ⟨j, hj, rfl⟩ := List.mem_map.mp hk
      rw [top, show (2#16 : Word) = BitVec.ofNat 16 2 from rfl, keyAt_add]
      exact keyAt_mem_bytes p (by have := List.mem_range.mp hj; omega)
    exact ((h.frame.mono (fun _ hi => hi) old).stepPointer (List.mem_singleton_self _) _).pokeWord
      (fun j hj => keyAt_mem_bytes p (by omega)) v
  · rw [pointer', ← place, h.pointer, Address.add_add, List.length_cons, Nat.mul_succ, BitVec.ofNat_add,
      BitVec.neg_add, BitVec.sub_eq_add_neg]
  · rw [pointer']
    cases j with
    | zero => exact (congrArg (State.peekWord _) (Address.add_zero p)).trans (peekWord_pokeWord_self _ p v)
    | succ j =>
      have small : j < ws.length := Nat.lt_of_succ_lt_succ hj
      have apart := peekWord_pokeWord_add (t.stepPointer sp (-2#16)) p (BitVec.ofNat 16 (2 * (j + 1))) 0#16 v
        (by bv_omega) (by bv_omega) (by bv_omega)
      rw [Address.add_zero] at apart
      rw [apart, (stepPointer_memory _ _ _).2.1, above, h.words j small]
      rfl
  · rw [State.pokeWord_pcSeg]
    exact h.pcSeg
  · rw [State.pokeWord_pcOff]
    exact h.pcOff

end Pushed

/-! ### The system stack -/

/-- In system mode, on the Z8001 with SEG = 1, the stack pointer is that of the system bank, and its offset is in
slot 15. -/
theorem stack_of_system {t : State} (sn : t.fcw.sn = true) (seg : t.cfg.variant = .z8002 ∨ t.fcw.seg = true) :
    t.pointer t.stackField = t.systemStack ∧ t.slot (t.offField t.stackField) = 15 := by
  cases v : t.cfg.variant with
  | z8002 =>
    have nonsegmented : t.segmented = false := by simp [State.segmented, v]
    simp [State.stackField, nonsegmented, pointer_nonsegmented, offField_nonsegmented, State.systemStack, v,
      curSeg_z8002, State.readW, State.slot, regSlot, sn]
  | z8001 =>
    have seg : t.fcw.seg = true := seg.resolve_left (by simp [v])
    have segmented : t.segmented = true := by simp [State.segmented, v, seg]
    simp [State.stackField, segmented, State.pointer, offField_segmented, State.systemStack, v, State.readW,
      State.slot, regSlot, sn]

/-- The words an entry pushes, from the new stack pointer on (60_exceptions R613). -/
def statusWords (v : Variant) (seg : BitVec 7) (off f id : Word) : List Word :=
  match v with
  | .z8002 => [id, f, off]
  | .z8001 => [id, f, segWord seg, off]

theorem pushStatus_even {u : State} (even : (u.pointer u.stackField).even = true) (g : BitVec 7) (off f id : Word) :
    ∃ t, u.pushStatus g off f id = .ok t ∧ Pushed u t u.stackField (statusWords u.cfg.variant g off f id) := by
  have field {t : State} {ws : List Word} (h : Pushed u t u.stackField ws) : t.stackField = u.stackField := by
    rw [State.stackField, h.frame.segmented]
    rfl
  obtain ⟨t1, push1, h1⟩ := (Pushed.nil u u.stackField).push even (by decide) off
  unfold State.pushStatus
  rw [push1]
  cases v : u.cfg.variant with
  | z8002 =>
    obtain ⟨t2, push2, h2⟩ := h1.push even (by simp) f
    obtain ⟨t3, push3, h3⟩ := h2.push even (by simp) id
    refine ⟨t3, ?_, h3⟩
    show (t1.pushWord t1.stackField f >>= fun t => t.pushWord t.stackField id) = _
    rw [field h1, push2]
    show t2.pushWord t2.stackField id = _
    rw [field h2, push3]
  | z8001 =>
    obtain ⟨t2, push2, h2⟩ := h1.push even (by simp) (segWord g)
    obtain ⟨t3, push3, h3⟩ := h2.push even (by simp) f
    obtain ⟨t4, push4, h4⟩ := h3.push even (by simp) id
    refine ⟨t4, ?_, h4⟩
    show (t1.pushWord t1.stackField (segWord g) >>= fun t => t.pushWord t.stackField f >>= fun t =>
      t.pushWord t.stackField id) = _
    rw [field h1, push2]
    show (t2.pushWord t2.stackField f >>= fun t => t.pushWord t.stackField id) = _
    rw [field h2, push3]
    show t3.pushWord t3.stackField id = _
    rw [field h3, push4]

/-! ### An entry -/

/-- The state in which an entry pushes the old status. -/
def State.entering (s : State) : State := s.forceSystem.setHalted false

theorem entering_stack (s : State) :
    s.entering.pointer s.entering.stackField = s.systemStack ∧
      s.entering.slot (s.entering.offField s.entering.stackField) = 15 := by
  refine stack_of_system rfl ?_
  cases v : s.cfg.variant with
  | z8002 => exact .inl v
  | z8001 => exact .inr (by simp [State.entering, State.forceSystem, v])

/-- What the pushes of an entry leave, in terms of the state that takes it. -/
structure Entered (s t : State) (ws : List Word) : Prop where
  stack : t.systemStack = s.systemStack.add (-BitVec.ofNat 16 (2 * ws.length))
  words : ∀ j (h : j < ws.length), t.peekWord (t.systemStack.add (BitVec.ofNat 16 (2 * j))) = ws[j]
  pcSeg : t.pcSeg = s.pcSeg
  psa : ∀ k, t.psaAddr k = s.psaAddr k
  cfg : t.cfg = s.cfg
  regs : ∀ i, i ≠ 15 → t.regs.get i = s.regs.get i
  mem : ∀ k, k ∉ t.systemStack.bytes (2 * ws.length) → t.mem.read k = s.mem.read k
  others : t.others = (s.setHalted false).others

theorem Pushed.entered {s t : State} {ws : List Word} (h : Pushed s.entering t s.entering.stackField ws) :
    Entered s t ws := by
  obtain ⟨stack, slot⟩ := entering_stack s
  have cfg : t.cfg = s.cfg := h.frame.cfg
  have field : t.stackField = s.entering.stackField := by
    rw [State.stackField, h.frame.segmented]
    rfl
  have seg : t.cfg.variant = .z8002 ∨ t.fcw.seg = true := by
    rw [h.frame.seg, cfg]
    cases v : s.cfg.variant with
    | z8002 => exact .inl rfl
    | z8001 => exact .inr (by simp [State.entering, State.forceSystem, v])
  have top : t.pointer s.entering.stackField = t.systemStack := field ▸ (stack_of_system h.frame.sn seg).1
  have psapSeg : t.psapSeg = s.psapSeg := (congrArg State.psapSeg h.frame.others :)
  have psapOff : t.psapOff = s.psapOff := (congrArg State.psapOff h.frame.others :)
  refine ⟨?_, top ▸ h.words, h.pcSeg, fun k => ?_, cfg, fun i hi => h.frame.regs i ?_,
    fun k hk => h.frame.mem k (top ▸ hk), h.frame.others⟩
  · rw [← top, h.pointer, stack]
  · rw [State.psaAddr, State.psaBase, cfg, psapSeg, psapOff]
    rfl
  · rw [slot]
    exact fun e => hi (List.mem_singleton.mp e)

theorem trapEntry_pushed {s : State} (even : s.systemStack.even = true) (e : Event) (id : Word) (g : BitVec 7)
    (off : Word) : ∃ t, s.trapEntry e id g off = t.loadStatus e ∧
      Entered s t (statusWords s.cfg.variant g off s.fcwImage id) := by
  obtain ⟨t, pushed, h⟩ := pushStatus_even (u := s.entering) ((entering_stack s).1 ▸ even) g off s.fcwImage id
  refine ⟨t, ?_, h.entered⟩
  unfold State.trapEntry
  exact (congrArg (fun x => x >>= fun t => t.loadStatus e) pushed).trans rfl

/-- Settles O12. -/
theorem trapEntryZ8002 : Obligations.TrapEntryZ8002 := by
  intro s e id g off z2 even
  obtain ⟨t, entry, h⟩ := trapEntry_pushed even e id g off
  rw [loadStatus_z8002 (by rw [h.cfg, z2]), h.psa, h.psa] at entry
  rw [State.fcwImage, z2] at h
  have top : t.peekWord t.systemStack = id :=
    (congrArg t.peekWord (Address.add_zero _)).symm.trans (h.words 0 (by simp [statusWords]))
  have second : t.peekWord (t.systemStack.add 2#16) = s.fcw.toWord .z8002 := h.words 1 (by simp [statusWords])
  have third : t.peekWord (t.systemStack.add 4#16) = off := h.words 2 (by simp [statusWords])
  have fcw : Fcw.ofWord t.cfg.variant (t.peekWord (s.psaAddr (e.fcwOffset .z8002))) =
      Fcw.ofWord .z8002 (t.peekWord (s.psaAddr (e.fcwOffset .z8002))) := by rw [h.cfg, z2]
  have halted : t.halted = false := (congrArg State.halted h.others :)
  exact ⟨_, entry, h.stack, top, second, third, fcw, rfl, h.pcSeg, halted, h.regs, h.mem, h.others⟩

/-- Settles O13. -/
theorem trapEntryZ8001 : Obligations.TrapEntryZ8001 := by
  intro s e id g off z1 even
  obtain ⟨t, entry, h⟩ := trapEntry_pushed even e id g off
  rw [loadStatus_z8001 (by rw [h.cfg, z1]), h.psa, h.psa, h.psa] at entry
  rw [State.fcwImage, z1] at h
  have top : t.peekWord t.systemStack = id :=
    (congrArg t.peekWord (Address.add_zero _)).symm.trans (h.words 0 (by simp [statusWords]))
  have second : t.peekWord (t.systemStack.add 2#16) = s.fcw.toWord .z8001 := h.words 1 (by simp [statusWords])
  have third : t.peekWord (t.systemStack.add 4#16) = segWord g := h.words 2 (by simp [statusWords])
  have fourth : t.peekWord (t.systemStack.add 6#16) = off := h.words 3 (by simp [statusWords])
  have fcw : Fcw.ofWord t.cfg.variant (t.peekWord (s.psaAddr (e.fcwOffset .z8001))) =
      Fcw.ofWord .z8001 (t.peekWord (s.psaAddr (e.fcwOffset .z8001))) := by rw [h.cfg, z1]
  have halted : t.halted = false := (congrArg State.halted h.others :)
  exact ⟨_, entry, h.stack, top, second, third, fourth, fcw, rfl, rfl, halted, h.regs, h.mem, h.others⟩

/-- With an even system stack pointer every entry answers a next state. -/
theorem trapEntry_even {s : State} (even : s.systemStack.even = true) (e : Event) (id : Word) (g : BitVec 7)
    (off : Word) : ∃ t, s.trapEntry e id g off = .ok t := by
  cases v : s.cfg.variant with
  | z8002 =>
    obtain ⟨t, entry, _⟩ := trapEntryZ8002 s e id g off v even
    exact ⟨t, entry⟩
  | z8001 =>
    obtain ⟨t, entry, _⟩ := trapEntryZ8001 s e id g off v even
    exact ⟨t, entry⟩

/-- With an odd one the first push stops (20_memory R73, 60_exceptions R615). -/
theorem trapEntry_odd {s : State} (odd : s.systemStack.even = false) (e : Event) (id : Word) (g : BitVec 7)
    (off : Word) : s.trapEntry e id g off = .error (.fault .oddWordAccess) := by
  have oddStep : ((s.entering.pointer s.entering.stackField).add (-2#16)).even = false := by
    rw [even_add _ (by decide), (entering_stack s).1, odd]
  have stops : s.entering.pushWord s.entering.stackField off = .error (.fault .oddWordAccess) := by
    rw [State.pushWord, pointer_stepPointer, State.writeWord, oddStep]
    rfl
  unfold State.trapEntry State.pushStatus
  show ((s.entering.pushWord s.entering.stackField off >>= _) >>= _) = _
  rw [stops]
  rfl

/-- Settles O10. -/
theorem extendedTrap : Obligations.ExtendedTrap := by
  intro s i he disabled saved
  have trap : exec i s = finish (s.trapEntry .extended (firstWord i) s.pcSeg saved) := by
    rw [exec_extended_disabled he disabled, decodeTrap_eq]
  refine ⟨trap, fun even => ?_⟩
  obtain ⟨t, entry⟩ := trapEntry_even even .extended (firstWord i) s.pcSeg saved
  exact ⟨t, by rw [trap, entry]; rfl⟩

end Sys2Proof.Machine
end

section
/-! The return from a trap or an interrupt (43_program_control R324) and the System Call. -/

namespace Sys2Proof.Machine

/-- From `s` to `t` the stack pointer `sp` went up by `k` bytes, and nothing else happened. -/
structure Popped (s t : State) (sp : RegField) (k : Word) : Prop where
  frame : Frame s t [s.slot (s.offField sp)] []
  pointer : t.pointer sp = (s.pointer sp).add k
  mem : t.mem = s.mem
  pcSeg : t.pcSeg = s.pcSeg

namespace Popped
variable {s t : State} {sp : RegField} {k : Word}

theorem refl (s : State) (sp : RegField) : Popped s s sp 0#16 := ⟨.refl s, (Address.add_zero _).symm, rfl, rfl⟩

theorem pop (h : Popped s t sp k) (even : (s.pointer sp).even = true) (hk : k.getLsbD 0 = false) :
    ∃ t', t.popWord sp = .ok (s.peekWord ((s.pointer sp).add k), t') ∧ Popped s t' sp (k + 2#16) := by
  have evenHere : (t.pointer sp).even = true := by rw [h.pointer, even_add _ hk, even]
  have value : t.peekWord (t.pointer sp) = s.peekWord ((s.pointer sp).add k) := by
    rw [State.peekWord, State.readByte, State.readByte, h.mem, h.pointer]
    rfl
  refine ⟨t.stepPointer sp 2#16, by rw [popWord_ok evenHere, value], h.frame.stepPointer (List.mem_singleton_self _) _, ?_,
    h.mem, h.pcSeg⟩
  rw [pointer_stepPointer, h.pointer, Address.add_add]

/-- On the system stack. -/
theorem system (h : Popped s t s.stackField k) (sn : s.fcw.sn = true)
    (seg : s.cfg.variant = .z8002 ∨ s.fcw.seg = true) :
    t.regs.get 15 = s.regs.get 15 + k ∧ (∀ i, i ≠ 15 → t.regs.get i = s.regs.get i) ∧ t.others = s.others := by
  obtain ⟨_, slot⟩ := stack_of_system sn seg
  have offset {u : State} (segmented : u.segmented = s.segmented) (f : RegField) :
      (u.pointer f).off = u.readW (s.offField f) := by
    rw [State.pointer, segmented, State.offField]
    split <;> rfl
  have moved : t.readW (s.offField s.stackField) = s.readW (s.offField s.stackField) + k := by
    rw [← offset h.frame.segmented, ← offset rfl, h.pointer]
    rfl
  rw [State.readW, State.readW, h.frame.slot, slot] at moved
  exact ⟨moved, fun i hi => h.frame.regs i (by rw [slot]; exact fun e => hi (List.mem_singleton.mp e)), h.frame.others⟩

end Popped

/-- The return on the Z8002. -/
theorem trapReturn_z8002 {s : State} (sn : s.fcw.sn = true) (z2 : s.cfg.variant = .z8002)
    (even : s.systemStack.even = true) : ∃ t, s.trapReturn =
      .ok ((t.loadFcw (s.peekWord (s.systemStack.add 2#16))).setPcOff (s.peekWord (s.systemStack.add 4#16))) ∧
      Popped s t s.stackField 6#16 := by
  have nonsegmented : s.segmented = false := by simp [State.segmented, z2]
  have field : s.stackField = 15#4 := by simp [State.stackField, nonsegmented]
  have stack := (stack_of_system sn (.inl z2)).1
  rw [← stack] at even
  obtain ⟨t1, pop1, h1⟩ := (Popped.refl s s.stackField).pop even (by decide)
  obtain ⟨t2, pop2, h2⟩ := h1.pop even (by decide)
  obtain ⟨t3, pop3, h3⟩ := h2.pop even (by decide)
  refine ⟨t3, ?_, h3⟩
  rw [field] at pop1 pop2 pop3
  unfold State.trapReturn
  rw [z2, pop1, ← stack, field]
  show (t1.popWord 15#4 >>= fun x => x.2.popWord 15#4 >>= fun y => .ok ((y.2.loadFcw x.1).setPcOff y.1)) = _
  rw [pop2]
  show (t2.popWord 15#4 >>= fun y => .ok ((y.2.loadFcw _).setPcOff y.1)) = _
  rw [pop3]
  rfl

/-- The return on the Z8001 with SEG = 1. -/
theorem trapReturn_z8001 {s : State} (sn : s.fcw.sn = true) (z1 : s.cfg.variant = .z8001) (seg : s.fcw.seg = true)
    (even : s.systemStack.even = true) : ∃ t, s.trapReturn =
      .ok ((t.loadFcw (s.peekWord (s.systemStack.add 2#16))).setPc
        (segOfWord (s.peekWord (s.systemStack.add 4#16))) (s.peekWord (s.systemStack.add 6#16))) ∧
      Popped s t s.stackField 8#16 := by
  have segmented : s.segmented = true := by simp [State.segmented, z1, seg]
  have field : s.stackField = 14#4 := by simp [State.stackField, segmented]
  have stack := (stack_of_system sn (.inr seg)).1
  rw [← stack] at even
  obtain ⟨t1, pop1, h1⟩ := (Popped.refl s s.stackField).pop even (by decide)
  obtain ⟨t2, pop2, h2⟩ := h1.pop even (by decide)
  obtain ⟨t3, pop3, h3⟩ := h2.pop even (by decide)
  obtain ⟨t4, pop4, h4⟩ := h3.pop even (by decide)
  refine ⟨t4, ?_, h4⟩
  rw [field] at pop1 pop2 pop3 pop4
  unfold State.trapReturn
  rw [z1, seg, pop1, ← stack, field]
  show (t1.popWord 14#4 >>= fun x => x.2.popWord 14#4 >>= fun y => y.2.popWord 14#4 >>= fun z =>
    .ok ((z.2.loadFcw x.1).setPc (segOfWord y.1) z.1)) = _
  rw [pop2]
  show (t2.popWord 14#4 >>= fun y => y.2.popWord 14#4 >>= fun z =>
    .ok ((z.2.loadFcw _).setPc (segOfWord y.1) z.1)) = _
  rw [pop3]
  show (t3.popWord 14#4 >>= fun z => .ok ((z.2.loadFcw _).setPc _ z.1)) = _
  rw [pop4]
  rfl

theorem exec_iret {s : State} (sn : s.fcw.sn = true) : exec .iret s = finish s.trapReturn :=
  congrArg finish (privileged_system sn .iret s.trapReturn)

/-- Settles O15. -/
theorem systemCallAndReturn : Obligations.SystemCallAndReturn := by
  intro s
  refine ⟨fun v => ?_, fun sn z2 even => ?_, fun sn z1 seg even => ?_, fun sn z1 seg => ?_⟩
  · have identifier : 0x7F00#16 + v.setWidth 16 = 0x7F#8 ++ v := by
      revert v
      decide +kernel
    have trap : exec (.sc v) s = finish (s.trapEntry .systemCall (0x7F#8 ++ v) s.pcSeg s.pcOff) := rfl
    refine ⟨by rw [identifier, trap], fun even => ?_⟩
    obtain ⟨t, entry⟩ := trapEntry_even even .systemCall (0x7F#8 ++ v) s.pcSeg s.pcOff
    exact ⟨t, by rw [trap, entry]; rfl⟩
  · obtain ⟨t, returned, popped⟩ := trapReturn_z8002 sn z2 even
    obtain ⟨moved, regs, others⟩ := popped.system sn (.inl z2)
    have cfg := popped.frame.cfg
    refine ⟨_, (exec_iret sn).trans (congrArg finish returned), ?_, rfl, popped.pcSeg, moved, regs, popped.mem, others⟩
    show Fcw.ofWord t.cfg.variant _ = _
    rw [cfg, z2]
  · obtain ⟨t, returned, popped⟩ := trapReturn_z8001 sn z1 seg even
    obtain ⟨moved, regs, others⟩ := popped.system sn (.inr seg)
    have cfg := popped.frame.cfg
    refine ⟨_, (exec_iret sn).trans (congrArg finish returned), ?_, rfl, rfl, moved, regs, popped.mem, others⟩
    show Fcw.ofWord t.cfg.variant _ = _
    rw [cfg, z1]
  · rw [exec_iret sn, State.trapReturn, z1, seg]
    rfl

/-! ### An entry and its return -/

/-- The image of an FCW loaded again (10_state R40, R42): nothing is lost, the SEG bit of a Z8002 being 0. -/
theorem Fcw.ofWord_toWord {v : Variant} {x : Fcw} (seg : v = .z8002 → x.seg = false) :
    Fcw.ofWord v (x.toWord v) = x := by
  obtain ⟨b15, b14, b13, b12, b11, _, low⟩ := Fcw.toWord_bits v x
  have flags : Flags.ofByte x.flags.toByte = x.flags := by
    obtain ⟨c, z, s, pv, d, h⟩ := Flags.toByte_bits x.flags
    simp only [Flags.ofByte, c, z, s, pv, d, h]
  rw [Fcw.ofWord, b15, b14, b13, b12, b11, low, flags]
  cases v with
  | z8001 => rfl
  | z8002 => exact congrArg (fun b => { x with seg := b }) (seg rfl).symm

theorem segOfWord_segWord (g : BitVec 7) : (0#1 ++ g ++ 0#8).extractLsb' 8 7 = g :=
  (BitVec.extractLsb'_append_eq_of_le (by decide)).trans BitVec.extractLsb'_append_eq_right

theorem vector_ext_get {v w : Vector Word 18} (h : ∀ i, v.get i = w.get i) : v = w :=
  Vector.ext fun i hi => h ⟨i, hi⟩

/-- The offset of the system stack pointer is the system R15 in both variants. -/
theorem systemStack_off (s : State) : s.systemStack.off = s.regs.get 15 := by
  unfold State.systemStack
  cases s.cfg.variant <;> rfl

/-- Pushes and pops of as many bytes leave every register as it was. -/
theorem regs_restored {s t u : State} {k : Word} (down : t.systemStack = s.systemStack.add (-k))
    (up : u.regs.get 15 = t.regs.get 15 + k) (pushed : ∀ i, i ≠ 15 → t.regs.get i = s.regs.get i)
    (popped : ∀ i, i ≠ 15 → u.regs.get i = t.regs.get i) : u.regs = s.regs := by
  have lowered : t.regs.get 15 = s.regs.get 15 + -k := by
    rw [← systemStack_off, ← systemStack_off, down]
    rfl
  refine vector_ext_get fun i => ?_
  by_cases stack : i = 15
  · rw [stack, up, lowered, BitVec.add_assoc, BitVec.add_comm (-k), ← BitVec.sub_eq_add_neg, BitVec.sub_self,
      BitVec.add_zero]
  · rw [popped i stack, pushed i stack]

/-- Settles O14: what O12 and O13 say is pushed, O15 says is popped. -/
theorem trapThenReturn : Obligations.TrapThenReturn := by
  intro s t e id inv entry sn seg
  have even : s.systemStack.even = true := by
    by_contra odd
    rw [trapEntry_odd (by simpa using odd)] at entry
    cases entry
  obtain ⟨_, return2, return1, _⟩ := systemCallAndReturn t
  cases v : s.cfg.variant with
  | z8002 =>
    obtain ⟨t', entry', down, _, second, third, _, _, pcSeg, _, pushed, _, others⟩ :=
      trapEntryZ8002 s e id s.pcSeg s.pcOff v even
    obtain rfl : t = t' := Except.ok.inj (entry.symm.trans entry')
    have z2 : t.cfg.variant = .z8002 := (congrArg (fun x => x.cfg.variant) others).trans v
    obtain ⟨u, next, fcw, pcOff, pcSeg', up, popped, mem, _⟩ :=
      return2 sn z2 (by rw [down, even_add _ (by decide), even])
    refine ⟨u, next, ?_, pcSeg'.trans pcSeg, pcOff.trans third, regs_restored down up pushed popped, mem⟩
    rw [fcw, second, Fcw.ofWord_toWord fun _ => (inv.2 v).1]
  | z8001 =>
    obtain ⟨t', entry', down, _, second, third, fourth, _, _, _, _, pushed, _, others⟩ :=
      trapEntryZ8001 s e id s.pcSeg s.pcOff v even
    obtain rfl : t = t' := Except.ok.inj (entry.symm.trans entry')
    have z1 : t.cfg.variant = .z8001 := (congrArg (fun x => x.cfg.variant) others).trans v
    obtain ⟨u, next, fcw, pcSeg, pcOff, up, popped, mem, _⟩ :=
      return1 sn z1 (seg v) (by rw [down, even_add _ (by decide), even])
    refine ⟨u, next, ?_, ?_, pcOff.trans fourth, regs_restored down up pushed popped, mem⟩
    · exact (fcw.trans (congrArg _ second)).trans (Fcw.ofWord_toWord fun z2 => nomatch z2)
    · rw [pcSeg, third, segOfWord_segWord]

end Sys2Proof.Machine
end

section
/-! Multiple loads (40_load_exchange R209). -/

namespace Sys2Proof.Machine

/-! ### What a frame keeps -/

namespace Frame
variable {s t u : State} {slots : List (Fin 18)} {keys : List Nat}

theorem trans (h : Frame s t slots keys) (h' : Frame t u slots keys) : Frame s u slots keys where
  regs i hi := (h'.regs i hi).trans (h.regs i hi)
  mem k hk := (h'.mem k hk).trans (h.mem k hk)
  control := (congrArg (fun x : Fcw => { x with flags := s.fcw.flags }) h'.control).trans h.control
  others := h'.others.trans h.others

theorem readW (h : Frame s t slots keys) {f : RegField} (hf : s.slot f ∉ slots) : t.readW f = s.readW f := by
  rw [State.readW, h.slot]
  exact h.regs _ hf

theorem peekWord (h : Frame s t slots keys) {a : Address} (h0 : a.keyAt 0 ∉ keys) (h1 : a.keyAt 1 ∉ keys) :
    t.peekWord a = s.peekWord a := by
  have low : t.readByte (a.add 1#16) = s.readByte (a.add 1#16) := h.mem _ h1
  rw [keyAt_zero] at h0
  have high : t.readByte a = s.readByte a := h.mem _ h0
  rw [State.peekWord, State.peekWord, high, low]

end Frame

theorem keyAt_inj {a : Address} {i j : Nat} (hi : i < 2 ^ 16) (hj : j < 2 ^ 16) (h : a.keyAt i = a.keyAt j) : i = j := by
  have same := congrArg BitVec.toNat (Address.add_inj h)
  rwa [BitVec.toNat_ofNat, BitVec.toNat_ofNat, Nat.mod_eq_of_lt hi, Nat.mod_eq_of_lt hj] at same

theorem bytes_add_subset (a : Address) (i n : Nat) : ∀ k ∈ (a.add (BitVec.ofNat 16 i)).bytes n, k ∈ a.bytes (i + n) := by
  rintro k hk
  obtain ⟨j, hj, rfl⟩ := List.mem_map.mp hk
  rw [keyAt_add]
  exact keyAt_mem_bytes a (by have := List.mem_range.mp hj; omega)

theorem keyAt_not_mem_bytes_add (a : Address) {i j n : Nat} (hj : j < i) (hn : i + n ≤ 2 ^ 16) :
    a.keyAt j ∉ (a.add (BitVec.ofNat 16 i)).bytes n := by
  intro h
  obtain ⟨k, hk, eq⟩ := List.mem_map.mp h
  have := List.mem_range.mp hk
  rw [keyAt_add] at eq
  have := keyAt_inj (by omega) (by omega) eq
  omega

/-- `k` registers from field `f` on, R0 after R15. -/
def State.slotRun (s : State) (f : RegField) (k : Nat) : List (Fin 18) :=
  (List.range k).map fun j => s.slot (f + BitVec.ofNat 4 j)

theorem slotRun_mem (s : State) (f : RegField) {j k : Nat} (hj : j < k) :
    s.slot (f + BitVec.ofNat 4 j) ∈ s.slotRun f k :=
  List.mem_map_of_mem (List.mem_range.mpr hj)

theorem field_add (f : RegField) (i j : Nat) : f + BitVec.ofNat 4 i + BitVec.ofNat 4 j = f + BitVec.ofNat 4 (i + j) := by
  rw [BitVec.add_assoc, ← BitVec.ofNat_add]

theorem slotRun_succ_subset (s : State) (f : RegField) (k : Nat) :
    ∀ i ∈ s.slotRun (f + 1#4) k, i ∈ s.slotRun f (1 + k) := by
  rintro i hi
  obtain ⟨j, hj, rfl⟩ := List.mem_map.mp hi
  have same := field_add f 1 j
  rw [show BitVec.ofNat 4 1 = 1#4 from rfl] at same
  rw [same]
  exact slotRun_mem s f (by have := List.mem_range.mp hj; omega)

/-- Sixteen registers in a row are all different. -/
theorem slot_not_mem_run (s : State) (f : RegField) {k : Nat} (hk : k < 16) : s.slot f ∉ s.slotRun (f + 1#4) k := by
  intro h
  obtain ⟨j, hj, eq⟩ := List.mem_map.mp h
  have := List.mem_range.mp hj
  have fields : f + 1#4 + BitVec.ofNat 4 j = f := slot_inj eq
  bv_omega

/-! ### LDM -/

/-- Words from memory to consecutive registers. -/
theorem loadMultiple_even (n : Nat) (hn : n ≤ 16) (f : RegField) (a : Address) (even : a.even = true) (s : State) :
    ∃ t, Machine.loadMultiple n f a s = .ok t ∧ Frame s t (s.slotRun f n) [] ∧
      (t.pcSeg = s.pcSeg ∧ t.pcOff = s.pcOff ∧ t.flags = s.flags ∧ t.mem = s.mem) ∧
      ∀ j < n, t.readW (f + BitVec.ofNat 4 j) = s.peekWord (a.add (BitVec.ofNat 16 (2 * j))) := by
  induction n generalizing f a s with
  | zero => exact ⟨s, rfl, .refl s, ⟨rfl, rfl, rfl, rfl⟩, nofun⟩
  | succ n ih =>
    obtain ⟨t, loaded, frame, same, regs⟩ := ih (by omega) (f + 1#4) (a.add 2#16)
      ((even_add a (by decide)).trans even) (s.writeW f (s.peekWord a))
    refine ⟨t, ?_, ?_, same, fun j hj => ?_⟩
    · unfold Machine.loadMultiple
      rw [readWord_even even]
      exact loaded
    · rw [Nat.add_comm]
      have rest := frame.mono (keys' := []) (slotRun_succ_subset s f n) (fun _ hk => hk)
      have here : s.slot f ∈ s.slotRun f (1 + n) := by simpa using slotRun_mem s f (j := 0) (k := 1 + n) (by omega)
      exact ((Frame.refl s).writeW here _).trans rest
    · cases j with
      | zero =>
        rw [show f + BitVec.ofNat 4 0 = f from BitVec.add_zero f, frame.readW (slot_not_mem_run _ f (by omega)),
          readW_writeW_self]
        exact congrArg s.peekWord (Address.add_zero a).symm
      | succ j =>
        rw [Nat.add_comm j 1, ← field_add, show BitVec.ofNat 4 1 = 1#4 from rfl, regs j (by omega), Nat.mul_add,
          BitVec.ofNat_add, ← Address.add_add]
        rfl

/-- Words from consecutive registers to memory. -/
theorem storeMultiple_even (n : Nat) (hn : n ≤ 16) (f : RegField) (a : Address) (even : a.even = true) (s : State) :
    ∃ t, Machine.storeMultiple n f a s = .ok t ∧ Frame s t [] (a.bytes (2 * n)) ∧
      (t.pcSeg = s.pcSeg ∧ t.pcOff = s.pcOff ∧ t.flags = s.flags) ∧
      ∀ j < n, t.peekWord (a.add (BitVec.ofNat 16 (2 * j))) = s.readW (f + BitVec.ofNat 4 j) := by
  induction n generalizing f a s with
  | zero => exact ⟨s, rfl, .refl s, ⟨rfl, rfl, rfl⟩, nofun⟩
  | succ n ih =>
    obtain ⟨t, stored, frame, ⟨pcSeg, pcOff, flags⟩, words⟩ := ih (by omega) (f + 1#4) (a.add 2#16)
      ((even_add a (by decide)).trans even) (s.pokeWord a (s.readW f))
    refine ⟨t, ?_, ?_, ⟨by simpa using pcSeg, by simpa using pcOff, by simpa using flags⟩, fun j hj => ?_⟩
    · unfold Machine.storeMultiple
      rw [writeWord_even even]
      exact stored
    · rw [Nat.mul_add, Nat.add_comm]
      exact ((Frame.refl s).pokeWord (fun j hj => keyAt_mem_bytes a (by omega)) _).trans
        (frame.mono (fun _ hi => hi) (bytes_add_subset a 2 (2 * n)))
    · cases j with
      | zero =>
        have apart {i : Nat} (hi : i < 2) := keyAt_not_mem_bytes_add a (i := 2) (n := 2 * n) hi (by omega)
        have first := frame.peekWord (apart (i := 0) (by decide)) (apart (i := 1) (by decide))
        rw [peekWord_pokeWord_self] at first
        rw [show f + BitVec.ofNat 4 0 = f from BitVec.add_zero f, ← first]
        exact congrArg t.peekWord (Address.add_zero a)
      | succ j =>
        have word := words j (by omega)
        rw [(pokeWord_registers _ _ _).1] at word
        rw [Nat.add_comm j 1, ← field_add, show BitVec.ofNat 4 1 = 1#4 from rfl, ← word, Nat.mul_add,
          BitVec.ofNat_add, ← Address.add_add]

end Sys2Proof.Machine

namespace Sys2Proof
open Machine

/-- Settles O28. -/
theorem loadMultiple : Obligations.LoadMultiple := by
  intro s f m num even
  have count : num.toNat + 1 ≤ 16 := num.isLt
  obtain ⟨t, loaded, frame, ⟨pcSeg, pcOff, flags, _⟩, regs⟩ := loadMultiple_even _ count f (s.ea m) even s
  obtain ⟨u, stored, frame', ⟨pcSeg', pcOff', flags'⟩, words⟩ := storeMultiple_even _ count f (s.ea m) even s
  exact ⟨⟨t, congrArg finish loaded, frame, pcSeg, pcOff, flags, fun j hj => regs j (Nat.lt_succ_of_le hj)⟩,
    ⟨u, congrArg finish stored, frame', pcSeg', pcOff', flags', fun j hj => words j (Nat.lt_succ_of_le hj)⟩⟩

end Sys2Proof
end

section
/-! Stacks, calls and jumps (40_load_exchange R211, R212, 43_program_control R321 to R327). -/

namespace Sys2Proof.Machine

/-! ### The registers of a pointer -/

theorem overlap_iff {xs ys : List RegField} : overlap xs ys = true ↔ ∃ x ∈ xs, x ∈ ys := by
  simp [overlap]

theorem overlap_singleton {f : RegField} {ys : List RegField} : overlap [f] ys = true ↔ f ∈ ys := by
  simp [overlap]

theorem overlap_pair {f : RegField} {ys : List RegField} :
    overlap [f, f + 1#4] ys = true ↔ f ∈ ys ∨ f + 1#4 ∈ ys := by
  simp [overlap]

/-- Writing a register outside a pointer leaves the pointer. -/
theorem pointer_writeW {s : State} {f sp : RegField} (v : Word) (hf : f ∉ s.pointerFields sp) :
    (s.writeW f v).pointer sp = s.pointer sp := by
  have segmented : (s.writeW f v).segmented = s.segmented := rfl
  rw [State.pointerFields] at hf
  rw [State.pointer, State.pointer, segmented]
  split at hf
  · obtain ⟨high, low⟩ := not_mem_pair.mp hf
    rw [if_pos ‹_›, if_pos ‹_›, readW_writeW_ne _ _ (Ne.symm high), readW_writeW_ne _ _ (Ne.symm low)]
  · rw [if_neg ‹_›, if_neg ‹_›, readW_writeW_ne _ _ (fun e => hf (List.mem_singleton.mpr e.symm))]
    rfl

theorem pointer_writeL {s : State} {f sp : RegField} (v : Long) (hf : f ∉ s.pointerFields sp)
    (hf' : f + 1#4 ∉ s.pointerFields sp) : (s.writeL f v).pointer sp = s.pointer sp :=
  (pointer_writeW (s := s.writeW f (v.extractLsb' 16 16)) _ hf').trans (pointer_writeW _ hf)

/-! ### PUSH -/

theorem runs_pushWord {i : Instr} {s : State} {sp : RegField} (even : (s.pointer sp).even = true) {v : Word} {k : Nat}
    (meaning : exec i s = finish ((s.took k).pushWord sp v)) :
    Runs i s [s.slot (s.offField sp)] (((s.pointer sp).add (-2#16)).bytes 2) fun t =>
      t.pointer sp = (s.pointer sp).add (-2#16) ∧ t.flags = s.flags ∧ t.peekWord ((s.pointer sp).add (-2#16)) = v := by
  have place : ((s.took k).stepPointer sp (-2#16)).pointer sp = (s.pointer sp).add (-2#16) :=
    pointer_stepPointer (s.took k) sp _
  have pushed : (s.took k).pushWord sp v =
      .ok (((s.took k).stepPointer sp (-2#16)).pokeWord ((s.pointer sp).add (-2#16)) v) := by
    rw [State.pushWord, place, writeWord_even ((even_add _ (by decide)).trans even)]
  refine ⟨_, by rw [meaning, pushed]; rfl, ((((Frame.refl s).took k).stepPointer (List.mem_singleton_self _) _).pokeWord
    (fun _ h => keyAt_mem_bytes _ h) v), ?_⟩
  simp

theorem runs_pushLong {i : Instr} {s : State} {sp : RegField} (even : (s.pointer sp).even = true) {v : Long} {k : Nat}
    (meaning : exec i s = finish ((s.took k).pushLong sp v)) :
    Runs i s [s.slot (s.offField sp)] (((s.pointer sp).add (-4#16)).bytes 4) fun t =>
      t.pointer sp = (s.pointer sp).add (-4#16) ∧ t.flags = s.flags ∧ t.peekLong ((s.pointer sp).add (-4#16)) = v := by
  have place : ((s.took k).stepPointer sp (-4#16)).pointer sp = (s.pointer sp).add (-4#16) :=
    pointer_stepPointer (s.took k) sp _
  have pushed : (s.took k).pushLong sp v =
      .ok (((s.took k).stepPointer sp (-4#16)).pokeLong ((s.pointer sp).add (-4#16)) v) := by
    rw [State.pushLong, place, writeLong_even ((even_add _ (by decide)).trans even)]
  refine ⟨_, by rw [meaning, pushed]; rfl, ((((Frame.refl s).took k).stepPointer (List.mem_singleton_self _) _).pokeLong
    (fun _ h => keyAt_mem_bytes _ h) v), ?_⟩
  simp

/-- Settles O29: the source is pushed as read, or a free value where it lies in the stack pointer. -/
theorem pushStoresSource : Obligations.PushStoresSource := by
  intro s sp even a2 a4
  refine ⟨fun src v reads => ?_, fun src v reads => ?_⟩
  · have plain (h : exec (.push sp src) s = finish (s.pushWord sp v)) :=
      runs_pushWord (k := 0) even h
    cases src with
    | r f =>
      cases reads
      have meaning : exec (.push sp (.r f)) s = finish (if overlap [f] (s.pointerFields sp) then
          (s.took 1).pushWord sp (s.fresh 0 16) else s.pushWord sp (s.readW f)) := rfl
      by_cases inside : overlap [f] (s.pointerFields sp) = true
      · rw [if_pos inside] at meaning
        exact (runs_pushWord even meaning).mono fun t ⟨pointer, flags, _⟩ =>
          ⟨pointer, flags, fun outside => absurd (overlap_singleton.mp inside) (outside f rfl)⟩
      · rw [if_neg inside] at meaning
        exact (plain meaning).mono fun t ⟨pointer, flags, value⟩ => ⟨pointer, flags, fun _ => value⟩
    | im w =>
      cases reads
      exact (plain rfl).mono fun t ⟨pointer, flags, value⟩ => ⟨pointer, flags, fun _ => value⟩
    | mem m =>
      have meaning : exec (.push sp (.mem m)) s = finish (s.pushWord sp v) := by
        show finish (s.srcW (.mem m) >>= fun v => s.pushWord sp v) = _
        rw [reads]
        rfl
      exact (plain meaning).mono fun t ⟨pointer, flags, value⟩ => ⟨pointer, flags, fun _ => value⟩
  · cases src with
    | r f =>
      cases reads
      have meaning : exec (.pushl sp (.r f)) s = finish (if overlap [f] (s.pointerFields sp) then
          (s.took 1).pushLong sp (s.fresh 0 32) else s.pushLong sp (s.readL f)) := rfl
      by_cases inside : overlap [f] (s.pointerFields sp) = true
      · rw [if_pos inside] at meaning
        exact (runs_pushLong even meaning).mono fun t ⟨pointer, flags, _⟩ =>
          ⟨pointer, flags, fun outside _ => absurd (overlap_singleton.mp inside) (outside f rfl)⟩
      · rw [if_neg inside] at meaning
        exact (runs_pushLong (k := 0) even meaning).mono fun t ⟨pointer, flags, value⟩ =>
          ⟨pointer, flags, fun _ _ => value⟩
    | mem m =>
      have meaning : exec (.pushl sp (.mem m)) s = finish (if sameField m sp then
          (s.took 1).pushLong sp (s.fresh 0 32) else s.pushLong sp v) := by
        show finish (s.rmL (.mem m) >>= fun v => if sameField m sp then _ else s.pushLong sp v) = _
        rw [reads]
        rfl
      by_cases same : sameField m sp = true
      · rw [if_pos same] at meaning
        exact (runs_pushLong even meaning).mono fun t ⟨pointer, flags, _⟩ =>
          ⟨pointer, flags, fun _ outside => absurd (same.symm.trans (outside m rfl)) nofun⟩
      · rw [if_neg same] at meaning
        exact (runs_pushLong (k := 0) even meaning).mono fun t ⟨pointer, flags, value⟩ =>
          ⟨pointer, flags, fun _ _ => value⟩

/-! ### POP -/

theorem freeWords_frame {s t : State} {slots : List (Fin 18)} {keys : List Nat} (h : Frame s t slots keys)
    {fs : List RegField} (hfs : ∀ f ∈ fs, s.slot f ∈ slots) : Frame s (freeWords fs t) slots keys ∧
      (freeWords fs t).pcSeg = t.pcSeg ∧ (freeWords fs t).pcOff = t.pcOff ∧ (freeWords fs t).flags = t.flags := by
  induction fs generalizing t with
  | nil => exact ⟨h, rfl, rfl, rfl⟩
  | cons f fs ih =>
    exact ih ((h.writeW (hfs f (List.mem_cons_self ..)) _).took 1) fun g hg => hfs g (List.mem_cons_of_mem _ hg)

/-- The registers of the pointer after POP or POPL with a destination that meets it. -/
theorem runs_popOverlap {i : Instr} {s t : State} {sp : RegField} {slots : List (Fin 18)} (frame : Frame s t slots [])
    (pcSeg : t.pcSeg = s.pcSeg) (pcOff : t.pcOff = s.pcOff) (flags : t.flags = s.flags)
    (next : exec i s = .next (freeWords (s.pointerFields sp) t)) :
    Runs i s (slots ++ (s.pointerFields sp).map s.slot) [] fun t => t.flags = s.flags := by
  obtain ⟨frame', seg, off, same⟩ := freeWords_frame
    (frame.mono (slots' := slots ++ (s.pointerFields sp).map s.slot) (fun _ h => List.mem_append_left _ h) (fun _ h => h))
    (fs := s.pointerFields sp) fun f hf => List.mem_append_right _ (List.mem_map_of_mem hf)
  exact ⟨_, next, frame', seg.trans pcSeg, off.trans pcOff, same.trans flags⟩

/-- Settles O30. -/
theorem popLoadsTop : Obligations.PopLoadsTop := by
  intro s sp even p moved open4
  have popR (f : RegField) : exec (.pop (.r f) sp) s = finish (if overlap [f] (s.pointerFields sp) then
      .ok (popOverlap sp id s) else .ok ((s.stepPointer sp 2#16).writeW f (s.peekWord p))) := by
    show finish (s.readWord p >>= _) = _
    rw [readWord_even even]
    rfl
  have poplR (f : RegField) : exec (.popl (.r f) sp) s = finish (if overlap [f, f + 1#4] (s.pointerFields sp) then
      .ok (popOverlap sp (fun t => t.writeL f (s.peekLong p)) s)
      else .ok ((s.stepPointer sp 4#16).writeL f (s.peekLong p))) := by
    show finish (s.readLong p >>= _) = _
    rw [readLong_even even]
    rfl
  have popM (m : Mem) : exec (.pop (.mem m) sp) s = finish (if sameField m sp then .ok (popOverlap sp id s)
      else (s.stepPointer sp 2#16).writeWord (s.ea m) (s.peekWord p)) := by
    show finish (s.readWord p >>= _) = _
    rw [readWord_even even]
    rfl
  have poplM (m : Mem) : exec (.popl (.mem m) sp) s = finish (if sameField m sp then .ok (popOverlap sp id s)
      else (s.stepPointer sp 4#16).writeLong (s.ea m) (s.peekLong p)) := by
    show finish (s.readLong p >>= _) = _
    rw [readLong_even even]
    rfl
  have step (k : Word) {slots : List (Fin 18)} {keys : List Nat} (h : s.slot (s.offField sp) ∈ slots) :
      Frame s (s.stepPointer sp k) slots keys := (Frame.refl s).stepPointer h k
  have none : Frame s s [] [] := .refl s
  refine ⟨fun f apart => ?_, fun m evenM apart => ?_, fun f apart apart' => ?_, fun m evenM apart => ?_,
    fun f inside => ?_, fun f inside => ?_, fun m inside => ⟨?_, ?_⟩⟩
  · have next := popR f
    rw [if_neg fun h => apart (overlap_singleton.mp h)] at next
    refine ⟨_, next, (step 2#16 (by simp [moved])).writeW (List.mem_cons_self ..) _, rfl, rfl, readW_writeW_self .., ?_, rfl⟩
    exact (pointer_writeW (s := s.stepPointer sp 2#16) _ apart).trans (pointer_stepPointer s sp _)
  · have next := popM m
    rw [apart, if_neg nofun, writeWord_even evenM] at next
    exact ⟨_, next, (step 2#16 (List.mem_singleton_self _)).pokeWord (fun _ h => keyAt_mem_bytes _ h) _, by simp [p]⟩
  · have next := poplR f
    rw [if_neg fun h => (overlap_pair.mp h).elim apart apart'] at next
    refine ⟨_, next, (step 4#16 (by simp [moved])).writeL (fun i h => List.mem_append_left _ h) _, by simp, by simp,
      readL_writeL_self .., ?_, by simp⟩
    exact (pointer_writeL (s := s.stepPointer sp 4#16) _ apart apart').trans (pointer_stepPointer s sp _)
  · have next := poplM m
    rw [apart, if_neg nofun, writeLong_even evenM] at next
    exact ⟨_, next, (step 4#16 (List.mem_singleton_self _)).pokeLong (fun _ h => keyAt_mem_bytes _ h) _, by simp [p]⟩
  · have next := popR f
    rw [if_pos (overlap_singleton.mpr inside)] at next
    exact runs_popOverlap none rfl rfl rfl next
  · have next := poplR f
    rw [if_pos (overlap_pair.mpr inside)] at next
    exact runs_popOverlap ((Frame.refl s).writeL (fun _ h => h) _) (by simp) (by simp) (by simp) next
  · have next := popM m
    rw [inside, if_pos rfl] at next
    exact runs_popOverlap none rfl rfl rfl next
  · have next := poplM m
    rw [inside, if_pos rfl] at next
    exact runs_popOverlap none rfl rfl rfl next

/-! ### Displacements -/

theorem shiftLeft_one_ofInt (n : Nat) (x : Int) : BitVec.ofInt n x <<< 1 = BitVec.ofInt n (2 * x) := by
  rw [BitVec.shiftLeft_eq_mul_twoPow, two_mul, BitVec.ofInt_add]
  apply BitVec.eq_of_toNat_eq
  rw [BitVec.toNat_mul, BitVec.toNat_twoPow, BitVec.toNat_add, Nat.mul_mod_mod, pow_one, mul_two]

/-- A doubled signed displacement added to or subtracted from the PC. -/
theorem add_displacement {n : Nat} (pc : Word) (d : BitVec n) :
    pc + (d.signExtend 16 <<< 1) = BitVec.ofInt 16 (pc.toInt + 2 * d.toInt) := by
  rw [BitVec.ofInt_add, BitVec.ofInt_toInt, ← shiftLeft_one_ofInt]
  rfl

theorem sub_displacement {n : Nat} (pc : Word) (d : BitVec n) :
    pc - (d.signExtend 16 <<< 1) = BitVec.ofInt 16 (pc.toInt - 2 * d.toInt) := by
  have ofInt_sub (x y : Int) : BitVec.ofInt 16 (x - y) = BitVec.ofInt 16 x - BitVec.ofInt 16 y := Int.cast_sub x y
  rw [ofInt_sub, BitVec.ofInt_toInt, ← shiftLeft_one_ofInt]
  rfl

theorem double_displacement (d : BitVec 7) : d.setWidth 16 <<< 1 = BitVec.ofNat 16 (2 * d.toNat) := by
  revert d
  decide +kernel

/-! ### Jumps -/

theorem jumpTo_pc (s : State) (a : Address) :
    (s.jumpTo a).pcOff = a.off ∧ (s.jumpTo a).pcSeg = if s.segmented then a.seg else s.pcSeg := by
  unfold State.jumpTo
  split <;> exact ⟨rfl, rfl⟩

theorem jumpTo_flags (s : State) (a : Address) : (s.jumpTo a).flags = s.flags := by
  unfold State.jumpTo
  split <;> rfl

/-- A counter that becomes 0 was 1. -/
theorem sub_one_eq_zero {n : Nat} (x : BitVec n) : x - 1#n = 0#n ↔ x = 1#n := sub_eq_zero

/-- Settles O42. -/
theorem jumpTargets : Obligations.JumpTargets := by
  intro s cc r m d8 d7
  have jp : exec (.jp cc m) s = .next (if cond cc s.flags then s.jumpTo (s.ea m) else s) := rfl
  have jr : exec (.jr cc d8) s =
      .next (if cond cc s.flags then s.setPcOff (s.pcOff + (d8.signExtend 16 <<< 1)) else s) := rfl
  have frame : Frame s s [] [] := .refl s
  refine ⟨fun holds => ⟨?_, ?_⟩, fun fails => ⟨?_, ?_⟩, ?_, ?_⟩
  · rw [if_pos holds] at jp
    exact ⟨_, jp, frame.jumpTo _, jumpTo_flags _ _, jumpTo_pc _ _⟩
  · rw [if_pos holds, add_displacement] at jr
    exact ⟨_, jr, frame.setPcOff _, rfl, rfl, rfl⟩
  · rw [fails] at jp
    exact ⟨s, jp, frame, rfl, rfl, rfl⟩
  · rw [fails] at jr
    exact ⟨s, jr, frame, rfl, rfl, rfl⟩
  · have next : exec (.djnz r d7) s = .next (if s.readW r - 1#16 = 0#16 then s.writeW r (s.readW r - 1#16)
        else (s.writeW r (s.readW r - 1#16)).setPcOff (s.pcOff - (d7.setWidth 16 <<< 1))) := rfl
    have write : Frame s (s.writeW r (s.readW r - 1#16)) [s.slot r] [] := (Frame.refl s).writeW (by simp) _
    rw [double_displacement] at next
    by_cases one : s.readW r = 1#16
    · rw [if_pos ((sub_one_eq_zero _).mpr one)] at next
      exact ⟨_, next, write, rfl, rfl, readW_writeW_self .., (if_pos one).symm⟩
    · rw [if_neg (mt (sub_one_eq_zero _).mp one)] at next
      exact ⟨_, next, write.setPcOff _, rfl, rfl, readW_writeW_self .., (if_neg one).symm⟩
  · have next : exec (.dbjnz r d7) s = .next (if s.readB r - 1#8 = 0#8 then s.writeB r (s.readB r - 1#8)
        else (s.writeB r (s.readB r - 1#8)).setPcOff (s.pcOff - (d7.setWidth 16 <<< 1))) := rfl
    have write : Frame s (s.writeB r (s.readB r - 1#8)) [s.slotB r] [] := (Frame.refl s).writeB (by simp) _
    rw [double_displacement] at next
    by_cases one : s.readB r = 1#8
    · rw [if_pos ((sub_one_eq_zero _).mpr one)] at next
      exact ⟨_, next, write, rfl, rfl, readB_writeB_self .., readB_writeB_other .., (if_pos one).symm⟩
    · rw [if_neg (mt (sub_one_eq_zero _).mp one)] at next
      exact ⟨_, next, write.setPcOff _, rfl, rfl, readB_writeB_self .., readB_writeB_other .., (if_neg one).symm⟩

end Sys2Proof.Machine
end

section
/-! Calls and returns (43_program_control R321, R322, R327). -/

namespace Sys2Proof.Machine

/-- In segmented mode no pointer depends on the PC. -/
theorem setPc_pointer {t : State} (seg : t.segmented = true) (g : BitVec 7) (o : Word) (f : RegField) :
    (t.setPc g o).pointer f = t.pointer f := by
  rw [pointer_segmented seg, pointer_segmented (s := t.setPc g o) seg]
  rfl

/-- Where the PC is saved by a call: below the stack pointer of the current mode. -/
def State.callSlot (s : State) : Address :=
  if s.segmented then (s.pointer s.stackField).add (-4#16) else (s.pointer s.stackField).add (-2#16)

/-- `t` is `s` with its PC pushed, wherever the PC of `t` then is. -/
structure PcSaved (s t : State) : Prop where
  frame : Frame s t [s.slot (s.offField s.stackField)] (s.callSlot.bytes (if s.segmented then 4 else 2))
  flags : t.flags = s.flags
  pointer : t.pointer s.stackField = s.callSlot
  long : s.segmented = true → t.peekLong s.callSlot = 0#1 ++ s.pcSeg ++ 0#8 ++ s.pcOff
  word : s.segmented = false → t.peekWord s.callSlot = s.pcOff

namespace PcSaved
variable {s t : State}

theorem setPcOff (h : PcSaved s t) (o : Word) : PcSaved s (t.setPcOff o) :=
  ⟨h.frame.setPcOff o, h.flags, h.pointer, h.long, h.word⟩

theorem setPc (h : PcSaved s t) (seg : t.segmented = true) (g : BitVec 7) (o : Word) : PcSaved s (t.setPc g o) :=
  ⟨h.frame.setPc g o, h.flags, (setPc_pointer seg g o _).trans h.pointer, h.long, h.word⟩

theorem jumpTo (h : PcSaved s t) (a : Address) : PcSaved s (t.jumpTo a) := by
  unfold State.jumpTo
  split
  · exact h.setPc ‹_› _ _
  · exact h.setPcOff _

end PcSaved

/-- The push of the PC. -/
theorem pushPc_saved {s : State} (even : (s.pointer s.stackField).even = true) :
    ∃ t, s.pushPc = .ok t ∧ t.pcSeg = s.pcSeg ∧ PcSaved s t := by
  have stepped (k : Word) : Frame s (s.stepPointer s.stackField k) [s.slot (s.offField s.stackField)]
      (s.callSlot.bytes (if s.segmented then 4 else 2)) := (Frame.refl s).stepPointer (List.mem_singleton_self _) k
  cases seg : s.segmented with
  | true =>
    have down : s.callSlot = (s.pointer s.stackField).add (-4#16) := if_pos seg
    have place : (s.stepPointer s.stackField (-4#16)).pointer s.stackField = s.callSlot := by
      rw [pointer_stepPointer, down]
    have evenDown : s.callSlot.even = true := by rw [down, even_add _ (by decide), even]
    have inKeys (k : Nat) (hk : k < 4) : s.callSlot.keyAt k ∈ s.callSlot.bytes (if s.segmented then 4 else 2) := by
      rw [if_pos seg]
      exact keyAt_mem_bytes _ hk
    have pushed : s.pushPc = .ok ((s.stepPointer s.stackField (-4#16)).pokeLong s.callSlot s.pcLong) := by
      rw [State.pushPc, if_pos seg, State.pushLong, place, writeLong_even evenDown]
    exact ⟨_, pushed, by simp, (stepped _).pokeLong inKeys _, by simp, (by simp : _ = (s.stepPointer s.stackField _).pointer s.stackField).trans place,
      fun _ => peekLong_pokeLong_self .., fun h => absurd (seg.symm.trans h) nofun⟩
  | false =>
    have down : s.callSlot = (s.pointer s.stackField).add (-2#16) := if_neg (by rw [seg]; nofun)
    have place : (s.stepPointer s.stackField (-2#16)).pointer s.stackField = s.callSlot := by
      rw [pointer_stepPointer, down]
    have evenDown : s.callSlot.even = true := by rw [down, even_add _ (by decide), even]
    have inKeys (k : Nat) (hk : k < 2) : s.callSlot.keyAt k ∈ s.callSlot.bytes (if s.segmented then 4 else 2) := by
      rw [seg]
      exact keyAt_mem_bytes _ hk
    have pushed : s.pushPc = .ok ((s.stepPointer s.stackField (-2#16)).pokeWord s.callSlot s.pcOff) := by
      rw [State.pushPc, seg, if_neg nofun, State.pushWord, place, writeWord_even evenDown]
    exact ⟨_, pushed, by simp, (stepped _).pokeWord inKeys _, by simp, (by simp : _ = (s.stepPointer s.stackField _).pointer s.stackField).trans place,
      fun h => absurd (seg.symm.trans h) nofun, fun _ => peekWord_pokeWord_self ..⟩

/-- RET when its condition holds. -/
theorem runs_ret {s : State} {cc : BitVec 4} (holds : Machine.cond cc s.flags = true)
    (even : (s.pointer s.stackField).even = true) :
    RunsFrom (.ret cc) s s [s.slot (s.offField s.stackField)] [] fun t => t.flags = s.flags ∧
      t.pointer s.stackField = (s.pointer s.stackField).add (if s.segmented then 4#16 else 2#16) ∧
      (s.segmented = true → t.pcOff = s.peekWord ((s.pointer s.stackField).add 2#16) ∧
        t.pcSeg = (s.peekWord (s.pointer s.stackField)).extractLsb' 8 7) ∧
      (s.segmented = false → t.pcOff = s.peekWord (s.pointer s.stackField) ∧ t.pcSeg = s.pcSeg) := by
  have meaning : exec (.ret cc) s = finish s.popPc := congrArg finish (if_pos holds)
  have popped (k : Word) : Frame s (s.stepPointer s.stackField k) [s.slot (s.offField s.stackField)] [] :=
    (Frame.refl s).stepPointer (List.mem_singleton_self _) k
  have moved (k : Word) := pointer_stepPointer s s.stackField k
  cases seg : s.segmented with
  | true =>
    rw [State.popPc, if_pos seg, popLong_ok even] at meaning
    refine ⟨_, meaning, (popped 4#16).setPc _ _, rfl,
      (setPc_pointer (t := s.stepPointer s.stackField 4#16) seg ..).trans (moved 4#16), fun _ => ⟨?_, ?_⟩, nofun⟩
    · exact BitVec.extractLsb'_append_eq_right
    · exact congrArg segOfWord (BitVec.extractLsb'_append_eq_left)
  | false =>
    rw [State.popPc, seg, if_neg nofun, popWord_ok even] at meaning
    exact ⟨_, meaning, (popped 2#16).setPcOff _, rfl, moved 2#16, nofun, fun _ => ⟨rfl, rfl⟩⟩

/-- Settles O41. -/
theorem callReturn : Obligations.CallReturn := by
  intro s
  refine ⟨fun cc fails => ⟨s, congrArg finish (if_neg (by rw [fails]; nofun)), .refl s, rfl, rfl, rfl⟩, fun even => ?_⟩
  obtain ⟨t, pushed, pcSeg, saved⟩ := pushPc_saved even
  refine ⟨fun m => ?_, fun disp => ?_, fun cc holds => runs_ret holds even⟩
  · have next : exec (.call m) s = .next (t.jumpTo (s.ea m)) := by
      show finish (s.pushPc >>= _) = _
      rw [pushed]
      rfl
    obtain ⟨frame, flags, pointer, long, word⟩ := saved.jumpTo (s.ea m)
    obtain ⟨off, seg⟩ := jumpTo_pc t (s.ea m)
    rw [saved.frame.segmented, pcSeg] at seg
    exact ⟨_, next, frame, ⟨flags, pointer, long, word⟩, off, seg⟩
  · have next : exec (.calr disp) s = .next (t.setPcOff (s.pcOff - (disp.signExtend 16 <<< 1))) := by
      show finish (s.pushPc >>= _) = _
      rw [pushed]
      rfl
    rw [sub_displacement] at next
    obtain ⟨frame, flags, pointer, long, word⟩ := saved.setPcOff (BitVec.ofInt 16 (s.pcOff.toInt - 2 * disp.toInt))
    exact ⟨_, next, frame, ⟨flags, pointer, long, word⟩, rfl, pcSeg⟩

end Sys2Proof.Machine
end

section
/-! Decimal adjustment (41_arithmetic R261). -/

namespace Sys2Proof.Machine

/-- The row of the table for `b` leaves a BCD byte of value `n` and the carry `carry`. -/
def adjustsTo (d c h : Bool) (b : Byte) (n : Nat) (carry : Bool) : Bool :=
  (dabRow d c h (b.extractLsb' 4 4) (b.extractLsb' 0 4)).any fun row =>
    isBcd (b + row.1) && bcdValue (b + row.1) == n && row.2 == carry

theorem adjustsTo_iff {d c h : Bool} {b : Byte} {n : Nat} {carry : Bool} : adjustsTo d c h b n carry = true ↔
    ∃ add, dabRow d c h (b.extractLsb' 4 4) (b.extractLsb' 0 4) = some (add, carry) ∧
      isBcd (b + add) = true ∧ bcdValue (b + add) = n := by
  cases carry <;> simp [adjustsTo, Option.any_eq_true]

/-- The rows of addition, by the sums `hi` and `lo` of the two digits. -/
theorem adjusts_digitSums : ∀ hi < 19, ∀ lo < 19,
    adjustsTo false (decide (256 ≤ 16 * hi + lo)) (decide (16 ≤ lo)) (BitVec.ofNat 8 (16 * hi + lo))
      ((10 * hi + lo) % 100) (decide (100 ≤ 10 * hi + lo)) = true := by
  decide +kernel

/-- The rows of subtraction, by the differences `hi` and `lo` of the two digits, with 9 added to each. -/
theorem adjusts_digitDifferences : ∀ hi < 19, ∀ lo < 19,
    adjustsTo true (decide (16 * hi + lo < 153)) (decide (lo < 9)) (BitVec.ofNat 8 (16 * hi + lo + 103))
      ((10 * hi + lo + 1) % 100) (decide (10 * hi + lo < 99)) = true := by
  decide +kernel

theorem isBcd_iff (x : Byte) : isBcd x = true ↔ x.toNat / 16 < 10 ∧ x.toNat % 16 < 10 := by
  simp [isBcd, Nat.lt_succ_iff]

/-- The row that a BCD sum meets. -/
theorem dabRow_sum {x y : Byte} (hx : isBcd x = true) (hy : isBcd y = true) :
    adjustsTo false (decide (256 ≤ x.toNat + y.toNat)) (decide (16 ≤ x.toNat % 16 + y.toNat % 16)) (x + y)
      ((bcdValue x + bcdValue y) % 100) (decide (100 ≤ bcdValue x + bcdValue y)) = true := by
  obtain ⟨x1, x0⟩ := (isBcd_iff x).mp hx
  obtain ⟨y1, y0⟩ := (isBcd_iff y).mp hy
  have binary : 16 * (x.toNat / 16 + y.toNat / 16) + (x.toNat % 16 + y.toNat % 16) = x.toNat + y.toNat := by omega
  have decimal : 10 * (x.toNat / 16 + y.toNat / 16) + (x.toNat % 16 + y.toNat % 16) = bcdValue x + bcdValue y := by
    unfold bcdValue
    omega
  have sum : BitVec.ofNat 8 (x.toNat + y.toNat) = x + y := by rw [BitVec.ofNat_add, BitVec.ofNat_toNat, BitVec.ofNat_toNat]; simp
  have row := adjusts_digitSums (x.toNat / 16 + y.toNat / 16) (by omega) (x.toNat % 16 + y.toNat % 16) (by omega)
  rwa [binary, decimal, sum] at row

/-- The row that a BCD difference meets. -/
theorem dabRow_difference {x y : Byte} (hx : isBcd x = true) (hy : isBcd y = true) :
    adjustsTo true (decide (x.toNat < y.toNat)) (decide (x.toNat % 16 < y.toNat % 16)) (x - y)
      ((bcdValue x + 100 - bcdValue y) % 100) (decide (bcdValue x < bcdValue y)) = true := by
  obtain ⟨x1, x0⟩ := (isBcd_iff x).mp hx
  obtain ⟨y1, y0⟩ := (isBcd_iff y).mp hy
  obtain ⟨hi, hhi⟩ : ∃ hi, hi + y.toNat / 16 = x.toNat / 16 + 9 := ⟨x.toNat / 16 + 9 - y.toNat / 16, by omega⟩
  obtain ⟨lo, hlo⟩ : ∃ lo, lo + y.toNat % 16 = x.toNat % 16 + 9 := ⟨x.toNat % 16 + 9 - y.toNat % 16, by omega⟩
  have row := adjusts_digitDifferences hi (by omega) lo (by omega)
  have difference : BitVec.ofNat 8 (16 * hi + lo + 103) = x - y := by
    apply BitVec.eq_of_toNat_eq
    rw [BitVec.toNat_sub, BitVec.toNat_ofNat]
    omega
  have borrow : decide (16 * hi + lo < 153) = decide (x.toNat < y.toNat) := decide_eq_decide.mpr (by omega)
  have half : decide (lo < 9) = decide (x.toNat % 16 < y.toNat % 16) := decide_eq_decide.mpr (by omega)
  have decimal : 10 * hi + lo + bcdValue y = bcdValue x + 99 := by unfold bcdValue; omega
  have value : 10 * hi + lo + 1 = bcdValue x + 100 - bcdValue y := by omega
  have carry : decide (10 * hi + lo < 99) = decide (bcdValue x < bcdValue y) := decide_eq_decide.mpr (by omega)
  rwa [difference, borrow, half, value, carry] at row

/-- DAB where a row of the table matches. -/
theorem decimalAdjust_row {s : State} {d : RegField} {add : Byte} {c : Bool}
    (row : dabRow s.flags.d s.flags.c s.flags.h ((s.readB d).extractLsb' 4 4) ((s.readB d).extractLsb' 0 4) =
      some (add, c)) :
    Machine.decimalAdjust d s =
      (s.writeB d (s.readB d + add)).setFlags { s.flags.zs (s.readB d + add) with c := c } := by
  simp only [Machine.decimalAdjust, row]

/-- The result of DAB where a row matches. -/
theorem decimalAdjust_adjusts {s : State} {d : RegField} {n : Nat} {carry : Bool}
    (h : adjustsTo s.flags.d s.flags.c s.flags.h (s.readB d) n carry = true) :
    let t := Machine.decimalAdjust d s
    isBcd (t.readB d) = true ∧ bcdValue (t.readB d) = n ∧ t.flags.c = carry ∧
      t.flags.z = decide (t.readB d = 0#8) ∧ t.flags.s = (t.readB d).msb := by
  obtain ⟨add, row, bcd, value⟩ := adjustsTo_iff.mp h
  have result : (Machine.decimalAdjust d s).readB d = s.readB d + add := by
    rw [decimalAdjust_row row]
    exact readB_writeB_self ..
  intro t
  rw [show t.readB d = _ from result, show t = _ from decimalAdjust_row row]
  exact ⟨bcd, value, rfl, rfl, rfl⟩

/-- What DAB leaves alone on any byte. -/
theorem decimalAdjust_frame (s : State) (d : RegField) :
    Frame s (Machine.decimalAdjust d s) [s.slotB d] [] ∧ (Machine.decimalAdjust d s).pcSeg = s.pcSeg ∧
      (Machine.decimalAdjust d s).pcOff = s.pcOff ∧
      (Machine.decimalAdjust d s).readB (d ^^^ 8#4) = s.readB (d ^^^ 8#4) ∧
      (Machine.decimalAdjust d s).flags.pv = s.flags.pv ∧ (Machine.decimalAdjust d s).flags.d = s.flags.d ∧
      (Machine.decimalAdjust d s).flags.h = s.flags.h := by
  have write (v : Byte) : Frame s (s.writeB d v) [s.slotB d] [] := (Frame.refl s).writeB (List.mem_singleton_self _) v
  have other (v : Byte) : (s.writeB d v).readB (d ^^^ 8#4) = s.readB (d ^^^ 8#4) := readB_writeB_other ..
  unfold Machine.decimalAdjust
  dsimp only
  split
  · exact ⟨(write _).setFlags _, rfl, rfl, other _, rfl, rfl, rfl⟩
  · exact ⟨((write _).setFlags _).took _, rfl, rfl, other _, rfl, rfl, rfl⟩

end Sys2Proof.Machine

namespace Sys2Proof
open Machine

/-- Settles O35: the rows by digits, over the 19 sums and the 19 differences of two decimal digits. -/
theorem decimalAdjust : Obligations.DecimalAdjust := by
  intro s d
  obtain ⟨frame, seg, off, other, pv, dd, hh⟩ := decimalAdjust_frame s d
  refine ⟨_, rfl, frame, seg, off, other, pv, dd, hh, fun x y hx hy => ⟨fun byte fd fc fh => ?_, fun byte fd fc fh => ?_⟩⟩
  · apply decimalAdjust_adjusts
    rw [byte, fd, fc, fh]
    exact dabRow_sum hx hy
  · apply decimalAdjust_adjusts
    rw [byte, fd, fc, fh]
    exact dabRow_difference hx hy

end Sys2Proof
end

section
/-! Division (41_arithmetic R264). -/

namespace Sys2Proof.Machine

/-- Where the quotient needs at most one bit too many, quotient and remainder are those of the truncated division. -/
theorem divCase_quotient {w : Nat} {n v : Int} (hv : v ≠ 0) (low : -(2 ^ w : Int) ≤ n.tdiv v) (high : n.tdiv v < 2 ^ w) :
    divCase w n v = if outOfRange w (n.tdiv v) then .oneBitOver (n.tdiv v) (n.tmod v) else .fits (n.tdiv v) (n.tmod v) := by
  have remainder : n - n.tdiv v * v = n.tmod v := by rw [Int.tmod_def, mul_comm]
  have small : ¬(n.tdiv v < -(2 ^ w : Int) ∨ (2 ^ w : Int) - 1 < n.tdiv v) := by omega
  rw [divCase, if_neg hv]
  dsimp only
  rw [remainder, if_neg small]
  by_cases out : outOfRange w (n.tdiv v) = true
  · rw [if_pos out, if_neg]
    rw [outOfRange, decide_eq_true_eq] at out
    omega
  · rw [if_neg out, if_pos]
    rw [outOfRange, decide_eq_true_eq] at out
    omega

theorem divCase_tooLarge {w : Nat} {n v : Int} (hv : v ≠ 0) (far : n.tdiv v < -(2 ^ w : Int) ∨ (2 ^ w : Int) ≤ n.tdiv v) :
    divCase w n v = .tooLarge := by
  have half : (2 ^ (w - 1) : Int) ≤ 2 ^ w := by exact_mod_cast Nat.pow_le_pow_right (by decide) (Nat.sub_le w 1)
  rw [divCase, if_neg hv]
  dsimp only
  rw [if_neg (by omega), if_pos (by omega)]

/-- The remainder is as small as the divisor. -/
theorem toInt_ofInt_tmod {w : Nat} (n : Int) {b : BitVec w} (hb : b.toInt ≠ 0) :
    (BitVec.ofInt w (n.tmod b.toInt)).toInt = n.tmod b.toInt := by
  have bound : (n.tmod b.toInt).natAbs < b.toInt.natAbs := by
    rw [Int.natAbs_tmod]
    exact Nat.mod_lt _ (Int.natAbs_pos.mpr hb)
  have low := BitVec.two_mul_toInt_lt (x := b)
  have high := BitVec.le_two_mul_toInt (x := b)
  rw [BitVec.toInt_ofInt]
  apply Int.bmod_eq_of_le_mul_two <;> push_cast <;> omega

theorem append_halves {m n : Nat} {a x : BitVec m} {b y : BitVec n} (h : a ++ b = x ++ y) : a = x ∧ b = y :=
  ⟨BitVec.extractLsb'_append_eq_left.symm.trans ((congrArg (BitVec.extractLsb' n m) h).trans BitVec.extractLsb'_append_eq_left),
    BitVec.extractLsb'_append_eq_right.symm.trans ((congrArg (BitVec.extractLsb' 0 n) h).trans BitVec.extractLsb'_append_eq_right)⟩

section
variable {s : State} {d : RegField}

theorem divideWord_zero (s : State) (d : RegField) :
    divideWord d 0#16 s = s.setFlags { s.flags with pv := true, z := true, c := false, s := false } := rfl

theorem divideLong_zero (s : State) (d : RegField) :
    divideLong d 0#32 s = s.setFlags { s.flags with pv := true, z := true, c := false, s := false } := rfl

theorem divideWord_quotient {b : Word} (hb : b.toInt ≠ 0) (low : -(2 ^ 16 : Int) ≤ (s.readL d).toInt.tdiv b.toInt)
    (high : (s.readL d).toInt.tdiv b.toInt < 2 ^ 16) : divideWord d b s =
      (s.writeL d (BitVec.ofInt 16 ((s.readL d).toInt.tmod b.toInt) ++ BitVec.ofInt 16 ((s.readL d).toInt.tdiv b.toInt))).setFlags
        (divFlags ((s.readL d).toInt.tdiv b.toInt) (outOfRange 16 ((s.readL d).toInt.tdiv b.toInt)) s.flags) := by
  simp only [divideWord, divCase_quotient hb low high]
  cases outOfRange 16 ((s.readL d).toInt.tdiv b.toInt) <;> rfl

theorem divideLong_quotient {b : Long} (hb : b.toInt ≠ 0) (low : -(2 ^ 32 : Int) ≤ (s.readQ d).toInt.tdiv b.toInt)
    (high : (s.readQ d).toInt.tdiv b.toInt < 2 ^ 32) : divideLong d b s =
      (s.writeQ d (BitVec.ofInt 32 ((s.readQ d).toInt.tmod b.toInt) ++ BitVec.ofInt 32 ((s.readQ d).toInt.tdiv b.toInt))).setFlags
        (divFlags ((s.readQ d).toInt.tdiv b.toInt) (outOfRange 32 ((s.readQ d).toInt.tdiv b.toInt)) s.flags) := by
  simp only [divideLong, divCase_quotient hb low high]
  cases outOfRange 32 ((s.readQ d).toInt.tdiv b.toInt) <;> rfl

theorem divideWord_tooLarge {b : Word} (hb : b.toInt ≠ 0)
    (far : (s.readL d).toInt.tdiv b.toInt < -(2 ^ 16 : Int) ∨ (2 ^ 16 : Int) ≤ (s.readL d).toInt.tdiv b.toInt) :
    divideWord d b s = ((s.writeL d (s.fresh 0 32)).setFlags
      { s.flags with pv := true, c := false, z := false, s := s.freshBit 1 }).took 2 := by
  simp only [divideWord, divCase_tooLarge hb far]

theorem divideLong_tooLarge {b : Long} (hb : b.toInt ≠ 0)
    (far : (s.readQ d).toInt.tdiv b.toInt < -(2 ^ 32 : Int) ∨ (2 ^ 32 : Int) ≤ (s.readQ d).toInt.tdiv b.toInt) :
    divideLong d b s = ((s.writeQ d (s.fresh 0 64)).setFlags
      { s.flags with pv := true, c := false, z := false, s := s.freshBit 1 }).took 2 := by
  simp only [divideLong, divCase_tooLarge hb far]

end

theorem toInt_ne_zero {n : Nat} {b : BitVec n} (h : b ≠ 0#n) : b.toInt ≠ 0 :=
  fun e => h (BitVec.eq_of_toInt_eq (by simpa using e))

/-- A quotient is within one bit more than the range, or beyond it. -/
theorem near_or_far (q : Int) (w : Nat) : (-(2 ^ w : Int) ≤ q ∧ q < 2 ^ w) ∨ (q < -(2 ^ w : Int) ∨ 2 ^ w ≤ q) := by
  omega

/-- Settles O38: by the four cases of R264. -/
theorem divideFourCases : Obligations.DivideFourCases := by
  intro s d
  refine ⟨fun src b reads => ?_, fun src b reads => ?_⟩
  · intro n q
    have next : exec (.div d src) s = .next (divideWord d b s) := by
      show finish (s.srcW src >>= _) = _
      rw [reads]
      rfl
    by_cases hb : b = 0#16
    · rw [hb, divideWord_zero] at next
      exact ⟨_, next, ((Frame.refl s).setFlags _).mono (slots := []) (keys := []) (by simp) (by simp), rfl, rfl, rfl, rfl,
        fun _ => ⟨rfl, rfl⟩, fun h => absurd hb h, fun h => absurd hb h⟩
    · have hb' := toInt_ne_zero hb
      rcases near_or_far q 16 with ⟨low, high⟩ | far
      · rw [divideWord_quotient hb' low high] at next
        refine (runs_writeL_setFlags next).mono fun t ⟨value, flags⟩ => ?_
        obtain ⟨r, q'⟩ := append_halves (a := t.readW d) (b := t.readW (d + 1#4)) value
        rw [flags]
        exact ⟨rfl, rfl, fun h => absurd h hb, fun _ _ _ => ⟨q', by rw [r, toInt_ofInt_tmod n hb'], rfl⟩,
          fun _ h => by omega⟩
      · rw [divideWord_tooLarge hb' far] at next
        refine ⟨_, next, (((Frame.refl s).writeL (fun _ h => h) _).setFlags _).took _, by simp, by simp, rfl, rfl,
          fun h => absurd h hb, fun _ low high => by omega, fun _ _ => ⟨rfl, rfl, rfl⟩⟩
  · intro n q
    have next : exec (.divl d src) s = .next (divideLong d b s) := by
      show finish (s.srcL src >>= _) = _
      rw [reads]
      rfl
    by_cases hb : b = 0#32
    · rw [hb, divideLong_zero] at next
      exact ⟨_, next, ((Frame.refl s).setFlags _).mono (slots := []) (keys := []) (by simp) (by simp), rfl, rfl, rfl, rfl,
        fun _ => ⟨rfl, rfl⟩, fun h => absurd hb h, fun h => absurd hb h⟩
    · have hb' := toInt_ne_zero hb
      rcases near_or_far q 32 with ⟨low, high⟩ | far
      · rw [divideLong_quotient hb' low high] at next
        refine (runs_writeQ_setFlags next).mono fun t ⟨value, flags⟩ => ?_
        obtain ⟨r, q'⟩ := append_halves (a := t.readL d) (b := t.readL (d + 2#4)) value
        rw [flags]
        exact ⟨rfl, rfl, fun h => absurd h hb, fun _ _ _ => ⟨q', by rw [r, toInt_ofInt_tmod n hb'], rfl⟩,
          fun _ h => by omega⟩
      · rw [divideLong_tooLarge hb' far] at next
        refine ⟨_, next, (((Frame.refl s).writeQ (fun _ h => h) _).setFlags _).took _, by simp, by simp, rfl, rfl,
          fun h => absurd h hb, fun _ low high => by omega, fun _ _ => ⟨rfl, rfl, rfl⟩⟩

end Sys2Proof.Machine
end

section
/-! Rotates (45_rotate_shift R373 to R378). -/

namespace Sys2Proof.Machine

/-! ### The bits of one position -/

section
variable {n : Nat} (v : BitVec n) (b : Bool)

theorem getLsbD_shlIn {i : Nat} (hi : i < n) : (shlIn v b).getLsbD i = if i = 0 then b else v.getLsbD (i - 1) := by
  cases i with
  | zero => cases b <;> simp [shlIn, hi]
  | succ i => cases b <;> simp [shlIn, hi, -BitVec.getLsbD_eq_getElem]

theorem getLsbD_shrIn {i : Nat} (hi : i < n) : (shrIn v b).getLsbD i = if i = n - 1 then b else v.getLsbD (i + 1) := by
  have top : i = n - 1 → v.getLsbD (i + 1) = false := fun e => BitVec.getLsbD_of_ge _ _ (by omega)
  by_cases last : i = n - 1
  · cases b <;> simp [shrIn, Nat.add_comm 1, ← last, top last, hi]
  · cases b <;> simp [shrIn, Nat.add_comm 1, last, hi]

theorem getLsbD_rotateLeft_lt {k i : Nat} (hk : k < n) (hi : i < n) :
    (v.rotateLeft k).getLsbD i = if i < k then v.getLsbD (n - k + i) else v.getLsbD (i - k) := by
  rw [BitVec.getLsbD_rotateLeft, Nat.mod_eq_of_lt hk, decide_eq_true hi, Bool.true_and, Bool.cond_decide]

theorem getLsbD_rotateRight_lt {k i : Nat} (hk : k < n) (hi : i < n) :
    (v.rotateRight k).getLsbD i = if i < n - k then v.getLsbD (k + i) else v.getLsbD (i - (n - k)) := by
  rw [BitVec.getLsbD_rotateRight, Nat.mod_eq_of_lt hk, decide_eq_true hi, Bool.true_and, Bool.cond_decide]

/-- The bits of the carry and the value as one word. -/
theorem getLsbD_withCarry {i : Nat} (hi : i < 1 + n) :
    (BitVec.ofBool b ++ v).getLsbD i = if i < n then v.getLsbD i else b := by
  rw [BitVec.getLsbD_append, BitVec.getLsbD_ofBool]
  split
  · rfl
  · rw [decide_eq_true (by omega : i - n = 0), Bool.true_and]

theorem withCarry_setWidth : (BitVec.ofBool b ++ v).setWidth n = v := by
  refine BitVec.eq_of_getLsbD_eq fun i hi => ?_
  rw [BitVec.getLsbD_setWidth, getLsbD_withCarry v b (by omega), if_pos hi, decide_eq_true hi, Bool.true_and]

theorem withCarry_msb : (BitVec.ofBool b ++ v).msb = b := by
  rw [BitVec.msb_eq_getLsbD_last, getLsbD_withCarry v b (by omega), if_neg (by omega)]

/-! ### Rotating by one position, and once more -/

theorem rotateLeft_one (hn : 1 < n) : v.rotateLeft 1 = shlIn v v.msb := by
  refine BitVec.eq_of_getLsbD_eq fun i hi => ?_
  rw [getLsbD_rotateLeft_lt v hn hi, getLsbD_shlIn v _ hi, BitVec.msb_eq_getLsbD_last]
  by_cases zero : i = 0
  · rw [if_pos (by omega), if_pos zero, zero, Nat.add_zero]
  · rw [if_neg (by omega), if_neg zero]

theorem rotateRight_one (hn : 1 < n) : v.rotateRight 1 = shrIn v (v.getLsbD 0) := by
  refine BitVec.eq_of_getLsbD_eq fun i hi => ?_
  rw [getLsbD_rotateRight_lt v hn hi, getLsbD_shrIn v _ hi]
  by_cases last : i = n - 1
  · rw [if_neg (by omega), if_pos last, last, Nat.sub_self]
  · rw [if_pos (by omega), if_neg last, Nat.add_comm]

theorem rotateLeft_two (hn : 2 < n) : v.rotateLeft 2 = (v.rotateLeft 1).rotateLeft 1 := by
  refine BitVec.eq_of_getLsbD_eq fun i hi => ?_
  rw [getLsbD_rotateLeft_lt v hn hi, getLsbD_rotateLeft_lt _ (by omega) hi]
  rcases i with _ | _ | i
  · rw [if_pos (by omega), if_pos (by omega), getLsbD_rotateLeft_lt v (by omega) (by omega), if_neg (by omega)]
    congr 1
  · rw [if_pos (by omega), if_neg (by omega), getLsbD_rotateLeft_lt v (by omega) (by omega), if_pos (by omega)]
    congr 1
    omega
  · rw [if_neg (by omega), if_neg (by omega), getLsbD_rotateLeft_lt v (by omega) (by omega), if_neg (by omega)]
    congr 1

theorem rotateRight_two (hn : 2 < n) : v.rotateRight 2 = (v.rotateRight 1).rotateRight 1 := by
  refine BitVec.eq_of_getLsbD_eq fun i hi => ?_
  rw [getLsbD_rotateRight_lt v hn hi, getLsbD_rotateRight_lt _ (by omega) hi]
  by_cases last : i < n - 1
  · rw [if_pos last, getLsbD_rotateRight_lt v (by omega) (by omega)]
    by_cases low : i < n - 2
    · rw [if_pos low, if_pos (by omega)]
      congr 1
      omega
    · rw [if_neg low, if_neg (by omega)]
      congr 1
      omega
  · rw [if_neg (by omega), if_neg last, getLsbD_rotateRight_lt v (by omega) (by omega), if_pos (by omega)]
    congr 1
    omega

/-- One position to the left through the carry. -/
theorem rotateLeft_withCarry (hn : 0 < n) :
    (BitVec.ofBool b ++ v).rotateLeft 1 = BitVec.ofBool v.msb ++ shlIn v b := by
  refine BitVec.eq_of_getLsbD_eq fun i hi => ?_
  rw [getLsbD_rotateLeft_lt _ (by omega) hi, getLsbD_withCarry (shlIn v b) _ hi, BitVec.msb_eq_getLsbD_last]
  by_cases low : i < n
  · rw [if_pos low, getLsbD_shlIn v b low]
    by_cases zero : i = 0
    · rw [if_pos (by omega), if_pos zero, getLsbD_withCarry v b (by omega), if_neg (by omega)]
    · rw [if_neg (by omega), if_neg zero, getLsbD_withCarry v b (by omega), if_pos (by omega)]
  · rw [if_neg (by omega), if_neg low, getLsbD_withCarry v b (by omega), if_pos (by omega)]
    congr 1
    omega

/-- One position to the right through the carry. -/
theorem rotateRight_withCarry (hn : 0 < n) :
    (BitVec.ofBool b ++ v).rotateRight 1 = BitVec.ofBool (v.getLsbD 0) ++ shrIn v b := by
  refine BitVec.eq_of_getLsbD_eq fun i hi => ?_
  rw [getLsbD_rotateRight_lt _ (by omega) hi, getLsbD_withCarry (shrIn v b) _ hi]
  by_cases low : i < n
  · rw [if_pos (by omega), if_pos low, getLsbD_shrIn v b low, getLsbD_withCarry v b (by omega), Nat.add_comm 1]
    by_cases last : i = n - 1
    · rw [if_neg (by omega), if_pos last]
    · rw [if_pos (by omega), if_neg last]
  · rw [if_neg (by omega), if_neg low, getLsbD_withCarry v b (by omega), if_pos (by omega)]
    congr 1
    omega

end

/-! ### Turns -/

/-- The one-position step of a turn. -/
def Turn.step {n : Nat} : Turn → Step1 n
  | .left => rlStep
  | .right => rrStep
  | .leftCarry => rlcStep
  | .rightCarry => rrcStep

section
variable {n : Nat} (hn : 2 < n) (x : Turn) (v : BitVec n) (c : Bool)

include hn

theorem shlIn_lsb (b : Bool) : (shlIn v b).getLsbD 0 = b := by rw [getLsbD_shlIn v b (by omega), if_pos rfl]

theorem shrIn_msb (b : Bool) : (shrIn v b).msb = b := by
  rw [BitVec.msb_eq_getLsbD_last, getLsbD_shrIn v b (by omega), if_pos rfl]

theorem turn_one : x.apply 1 v c = x.step v c := by
  cases x with
  | left => rw [Turn.apply, rotateLeft_one v (by omega), shlIn_lsb hn]; rfl
  | right => rw [Turn.apply, rotateRight_one v (by omega), shrIn_msb hn]; rfl
  | leftCarry => rw [Turn.apply, rotateLeft_withCarry v c (by omega), withCarry_setWidth, withCarry_msb]; rfl
  | rightCarry => rw [Turn.apply, rotateRight_withCarry v c (by omega), withCarry_setWidth, withCarry_msb]; rfl

theorem turn_two : x.apply 2 v c = x.step (x.step v c).1 (x.step v c).2 := by
  cases x with
  | left =>
    rw [Turn.apply, rotateLeft_two v hn, rotateLeft_one (v.rotateLeft 1) (by omega), rotateLeft_one v (by omega),
      shlIn_lsb hn]
    rfl
  | right =>
    rw [Turn.apply, rotateRight_two v hn, rotateRight_one (v.rotateRight 1) (by omega), rotateRight_one v (by omega),
      shrIn_msb hn]
    rfl
  | leftCarry =>
    rw [Turn.apply, rotateLeft_two _ (by omega), rotateLeft_withCarry v c (by omega),
      rotateLeft_withCarry _ _ (by omega), withCarry_setWidth, withCarry_msb]
    rfl
  | rightCarry =>
    rw [Turn.apply, rotateRight_two _ (by omega), rotateRight_withCarry v c (by omega),
      rotateRight_withCarry _ _ (by omega), withCarry_setWidth, withCarry_msb]
    rfl

/-- The model's rotate is the turn, with its flags. -/
theorem rotAlu_eq_turn (pol : ShiftVPolicy) (two : Bool) (f : Flags) :
    rotAlu pol x.step two v f =
      ((x.apply (if two then 2 else 1) v f.c).1,
        { signFlags (x.apply (if two then 2 else 1) v f.c).1 f with
          c := (x.apply (if two then 2 else 1) v f.c).2, pv := x.v pol two v f.c }) := by
  cases two <;> cases pol <;> simp [rotAlu, steps, stepsV, Turn.v, turn_one hn, turn_two hn, Flags.zs_eq_signFlags]

end

/-! ### The obligation -/

theorem rotateB_turn {i : Instr} {s : State} {d : RegField} {two : Bool} {x : Turn}
    (next : exec i s = .next (rotateB x.step d two s)) : RotateB i s x d two := by
  rw [rotateB, rotAlu_eq_turn (by decide)] at next
  exact runs_writeB_setFlags next

theorem rotateW_turn {i : Instr} {s : State} {d : RegField} {two : Bool} {x : Turn}
    (next : exec i s = .next (rotateW x.step d two s)) : RotateW i s x d two := by
  rw [rotateW, rotAlu_eq_turn (by decide)] at next
  exact runs_writeW_setFlags next

/-- The digit rotates, whatever bytes they leave. -/
theorem runs_rotateDigits {i : Instr} {s : State} {d src : RegField} {nl nb : Byte}
    (next : exec i s = .next (rotateDigits d src nl nb s)) :
    Runs i s [s.slotB d, s.slotB src] [] fun t => t.flags.c = s.flags.c ∧ t.flags.pv = s.flags.pv ∧
      t.flags.d = s.flags.d ∧ t.flags.h = s.flags.h ∧
      (d = src → t.readB (d ^^^ 8#4) = s.readB (d ^^^ 8#4)) ∧
      (d ≠ src → t.readB d = nl ∧ t.readB src = nb ∧ t.flags.z = decide (nl = 0#8) ∧
        (src ≠ d ^^^ 8#4 → t.readB (d ^^^ 8#4) = s.readB (d ^^^ 8#4) ∧
          t.readB (src ^^^ 8#4) = s.readB (src ^^^ 8#4))) := by
  have first {v : Byte} : Frame s (s.writeB d v) [s.slotB d, s.slotB src] [] :=
    (Frame.refl s).writeB (List.mem_cons_self ..) v
  by_cases same : d = src
  · rw [rotateDigits, if_pos same] at next
    exact ⟨_, next, (first.setFlags _).took _, rfl, rfl, rfl, rfl, rfl, rfl,
      fun _ => readB_writeB_other .., fun h => absurd same h⟩
  · rw [rotateDigits, if_neg same] at next
    refine ⟨_, next, ((first.writeB (by simp) nb).setFlags _).took _, rfl, rfl, rfl, rfl, rfl, rfl,
      fun h => absurd h same, fun _ => ⟨?_, readB_writeB_self .., rfl, fun apart => ⟨?_, ?_⟩⟩⟩
    · exact ((readB_writeB ..).trans (if_neg same)).trans (readB_writeB_self ..)
    · exact ((readB_writeB ..).trans (if_neg (Ne.symm apart))).trans (readB_writeB_other ..)
    · refine (readB_writeB_other ..).trans ((readB_writeB ..).trans (if_neg fun e => apart ?_))
      rw [← e, BitVec.xor_assoc, BitVec.xor_self, BitVec.xor_zero]

/-- Settles O45: a turn by two positions is its step twice. -/
theorem rotateResults : Obligations.RotateResults := fun _ _ _ =>
  ⟨rotateB_turn rfl, rotateW_turn rfl, rotateB_turn rfl, rotateW_turn rfl, rotateB_turn rfl, rotateW_turn rfl,
    rotateB_turn rfl, rotateW_turn rfl, fun _ => ⟨runs_rotateDigits rfl, runs_rotateDigits rfl⟩⟩

end Sys2Proof.Machine
end

section
/-! Shifts (45_rotate_shift R370 to R372, R379 to R384). -/

namespace Sys2Proof.Machine

/-! ### One position -/

section
variable {n : Nat} (v : BitVec n)

theorem shlIn_false : shlIn v false = v <<< 1 := by simp [shlIn]

theorem shrIn_false : shrIn v false = v >>> 1 := by simp [shrIn]

theorem shrIn_msb_eq : shrIn v v.msb = v.sshiftRight 1 := by
  refine BitVec.eq_of_getLsbD_eq fun i hi => ?_
  rw [getLsbD_shrIn v _ hi, BitVec.getLsbD_sshiftRight]
  by_cases last : i = n - 1
  · simp [last, show ¬(1 + (n - 1) < n) by omega, show ¬ n ≤ n - 1 by omega]
  · simp [last, Nat.add_comm 1, show i + 1 < n by omega, show ¬ n ≤ i by omega]

end

/-! ### The steps of a shift -/

section
variable {n : Nat} (v : BitVec n) (c : Bool)

theorem steps_succ (st : Step1 n) (k : Nat) : steps st (k + 1) v c =
    ((steps st k (st v c).1 (st v c).2).1, (steps st k (st v c).1 (st v c).2).2.1,
      ((st v c).1.msb != v.msb) || (steps st k (st v c).1 (st v c).2).2.2) := rfl

theorem steps_shl (k : Nat) : (steps shlStep k v c).1 = v <<< k := by
  induction k generalizing v c with
  | zero => exact (BitVec.shiftLeft_zero v).symm
  | succ k ih => rw [steps_succ, ih, shlStep, shlIn_false, ← BitVec.shiftLeft_add, Nat.add_comm]

theorem steps_sra (k : Nat) : (steps sraStep k v c).1 = v.sshiftRight k := by
  induction k generalizing v c with
  | zero => exact (BitVec.sshiftRight_zero ..).symm
  | succ k ih => rw [steps_succ, ih, sraStep, shrIn_msb_eq, ← BitVec.sshiftRight_add, Nat.add_comm]

theorem steps_srl (k : Nat) : (steps srlStep k v c).1 = v >>> k := by
  induction k generalizing v c with
  | zero => exact (BitVec.ushiftRight_zero v).symm
  | succ k ih => rw [steps_succ, ih, srlStep, shrIn_false, ← BitVec.shiftRight_add, Nat.add_comm]

/-- The last bit shifted out. -/
theorem steps_shl_carry {k : Nat} (hk : k < n) : (steps shlStep (k + 1) v c).2.1 = v.getLsbD (n - (k + 1)) := by
  induction k generalizing v c with
  | zero => exact BitVec.msb_eq_getLsbD_last v
  | succ k ih =>
    rw [steps_succ]
    rw [ih _ _ (by omega), shlStep, getLsbD_shlIn v _ (by omega), if_neg (by omega)]
    congr 1

theorem steps_sra_carry {k : Nat} (hk : k < n) : (steps sraStep (k + 1) v c).2.1 = v.getLsbD k := by
  induction k generalizing v c with
  | zero => rfl
  | succ k ih => rw [steps_succ]; rw [ih _ _ (by omega), sraStep, getLsbD_shrIn v _ (by omega), if_neg (by omega)]

theorem steps_srl_carry {k : Nat} (hk : k < n) : (steps srlStep (k + 1) v c).2.1 = v.getLsbD k := by
  induction k generalizing v c with
  | zero => rfl
  | succ k ih => rw [steps_succ]; rw [ih _ _ (by omega), srlStep, getLsbD_shrIn v _ (by omega), if_neg (by omega)]

end

/-! ### The sign of an arithmetic left shift -/

theorem outOfRange_iff {n : Nat} {x : Int} :
    outOfRange n x = true ↔ x < -(2 ^ (n - 1) : Int) ∨ (2 ^ (n - 1) : Int) ≤ x := decide_eq_true_iff

/-- What is out of range stays so when it is doubled again. -/
theorem outOfRange_mul_two_pow {n : Nat} {x : Int} (h : outOfRange n x = true) (k : Nat) :
    outOfRange n (x * 2 ^ k) = true := by
  have one : (1 : Int) ≤ 2 ^ k := one_le_pow₀ (by decide)
  have pos : (0 : Int) < 2 ^ (n - 1) := by positivity
  rcases outOfRange_iff.mp h with low | high
  · exact outOfRange_iff.mpr (.inl (by nlinarith))
  · exact outOfRange_iff.mpr (.inr (by nlinarith))

theorem outOfRange_toInt {n : Nat} (v : BitVec n) : outOfRange n v.toInt = false := by
  rw [← Bool.not_eq_true, outOfRange_iff]
  have low := BitVec.le_toInt v
  have high := BitVec.toInt_lt (x := v)
  omega

/-- Doubling changes the sign exactly when it leaves the range, and is exact when it does not. -/
theorem shiftLeft_one_sign {n : Nat} (hn : 0 < n) (v : BitVec n) :
    ((v <<< 1).msb != v.msb) = outOfRange n (v.toInt * 2) ∧
      (outOfRange n (v.toInt * 2) = false → (v <<< 1).toInt = v.toInt * 2) := by
  have double : 2 ^ n = 2 * 2 ^ (n - 1) := by rw [← pow_succ', Nat.sub_add_cancel hn]
  have size := v.isLt
  have shifted : (v <<< 1).toNat = 2 * v.toNat % 2 ^ n := by
    rw [BitVec.toNat_shiftLeft, Nat.shiftLeft_eq, pow_one, mul_comm]
  have limit : ((2 ^ (n - 1) : Nat) : Int) = 2 ^ (n - 1) := by push_cast; rfl
  rw [double] at size
  have wrapped : (v <<< 1).toNat = 2 * v.toNat ∧ v.toNat < 2 ^ (n - 1) ∨
      (v <<< 1).toNat + 2 * 2 ^ (n - 1) = 2 * v.toNat ∧ 2 ^ (n - 1) ≤ v.toNat := by
    rw [shifted, double, Nat.mul_mod_mul_left]
    rcases Nat.lt_or_ge v.toNat (2 ^ (n - 1)) with small | large
    · exact .inl ⟨by rw [Nat.mod_eq_of_lt small], small⟩
    · rw [Nat.mod_eq_sub_mod large, Nat.mod_eq_of_lt (by omega)]
      exact .inr ⟨by omega, large⟩
  constructor
  · rw [Bool.eq_iff_iff, bne_iff_ne, Ne, outOfRange_iff, BitVec.msb_eq_decide, BitVec.msb_eq_decide, decide_eq_decide,
      BitVec.toInt_eq_toNat_cond, ← limit, double]
    generalize 2 ^ (n - 1) = p at *
    split <;> omega
  · rw [← Bool.not_eq_true, outOfRange_iff, BitVec.toInt_eq_toNat_cond, BitVec.toInt_eq_toNat_cond, ← limit, double]
    generalize 2 ^ (n - 1) = p at *
    split <;> split <;> omega

/-- The sign changes at some step exactly when the product leaves the range. -/
theorem steps_shl_sign {n : Nat} (hn : 0 < n) (v : BitVec n) (c : Bool) (k : Nat) :
    (steps shlStep k v c).2.2 = outOfRange n (v.toInt * 2 ^ k) := by
  induction k generalizing v c with
  | zero => rw [pow_zero, mul_one, outOfRange_toInt]; rfl
  | succ k ih =>
    obtain ⟨changes, exact⟩ := shiftLeft_one_sign hn v
    have product : v.toInt * 2 ^ (k + 1) = v.toInt * 2 * 2 ^ k := by rw [pow_succ', mul_assoc]
    rw [steps_succ]
    rw [ih, shlStep, shlIn_false, changes, product]
    cases out : outOfRange n (v.toInt * 2) with
    | true => rw [Bool.true_or, outOfRange_mul_two_pow out]
    | false => rw [Bool.false_or, exact out]

/-! ### The result of a shift -/

section
variable {n : Nat} (arith : Bool) (k : Int) (v : BitVec n)

theorem shiftStep_left {k : Int} (pos : 0 < k) : shiftStep (n := n) arith k = shlStep := if_pos pos

theorem shiftStep_right {k : Int} (neg : k < 0) :
    shiftStep (n := n) arith k = if arith then sraStep else srlStep := if_neg (by omega)

theorem shifted_left {k : Int} (pos : 0 < k) : shifted arith k v = v <<< k.natAbs := by
  rw [shifted, if_pos pos.le, (by omega : k.toNat = k.natAbs)]

theorem steps_shifted (c : Bool) : (steps (shiftStep arith k) k.natAbs v c).1 = shifted arith k v := by
  rcases lt_trichotomy k 0 with neg | rfl | pos
  · rw [shiftStep_right arith neg, shifted, if_neg (not_le.mpr neg)]
    cases arith
    · exact steps_srl v c _
    · exact steps_sra v c _
  · exact (BitVec.shiftLeft_zero v).symm
  · rw [shiftStep_left arith pos, steps_shl, shifted_left arith v pos]

theorem steps_carry_left {k : Int} (c : Bool) (pos : 0 < k) (high : k ≤ n) :
    (steps (shiftStep arith k) k.natAbs v c).2.1 = v.getLsbD (n - k.toNat) := by
  obtain ⟨j, hj⟩ : ∃ j, k.natAbs = j + 1 := ⟨k.natAbs - 1, by omega⟩
  rw [shiftStep_left arith pos, hj, steps_shl_carry v c (by omega), (by omega : k.toNat = j + 1)]

theorem steps_carry_right {k : Int} (c : Bool) (neg : k < 0) (low : -(n : Int) ≤ k) :
    (steps (shiftStep arith k) k.natAbs v c).2.1 = v.getLsbD (k.natAbs - 1) := by
  obtain ⟨j, hj⟩ : ∃ j, k.natAbs = j + 1 := ⟨k.natAbs - 1, by omega⟩
  rw [shiftStep_right arith neg, hj, Nat.add_sub_cancel]
  cases arith
  · exact steps_srl_carry v c (by omega)
  · exact steps_sra_carry v c (by omega)

variable (s : State)

theorem shiftResult_keeps : (shiftResult arith k v s).2.d = s.flags.d ∧ (shiftResult arith k v s).2.h = s.flags.h := by
  unfold shiftResult
  split <;> exact ⟨rfl, rfl⟩

theorem shiftResult_inRange {k : Int} (range : -(n : Int) ≤ k ∧ k ≤ n) : shiftResult arith k v s =
    (shifted arith k v, { s.flags.zs (shifted arith k v) with
      c := if k = 0 then s.freshBit 0 else (steps (shiftStep arith k) k.natAbs v s.flags.c).2.1
      pv := if arith then decide (0 < k) && stepsV s.cfg.shiftVPolicy (shiftStep arith k) k.natAbs v s.flags.c
            else s.freshBit 1 }) := by
  simp only [shiftResult, shiftInRange, decide_eq_true range, if_true, steps_shifted]

/-- The flags of a shift with its count in range. -/
theorem shiftResult_flags (hn : 0 < n) {k : Int} (range : -(n : Int) ≤ k ∧ k ≤ n) {t : State}
    (flags : t.flags = (shiftResult arith k v s).2) : ShiftFlags arith k v s t := by
  rw [shiftResult_inRange arith v s range] at flags
  unfold ShiftFlags
  rw [flags]
  refine ⟨rfl, rfl, rfl, rfl, fun pos => ?_, fun neg => ?_, ?_, ?_, ?_⟩
  · exact (if_neg pos.ne').trans (steps_carry_left arith v _ pos range.2)
  · exact (if_neg neg.ne).trans (steps_carry_right arith v _ neg range.1)
  · rintro rfl nonpos
    rw [if_pos rfl, decide_eq_false (by omega), Bool.false_and]
  · rintro rfl pos policy
    rw [if_pos rfl, decide_eq_true pos, Bool.true_and, policy, stepsV, shiftStep_left true pos, steps_shl_sign hn,
      (by omega : k.natAbs = k.toNat)]
  · rintro rfl pos policy
    rw [if_pos rfl, decide_eq_true pos, Bool.true_and, policy, stepsV, steps_shifted]

end

/-! ### The obligation -/

section
variable {i : Instr} {s : State} {arith : Bool} {d : RegField} {k : Int}

theorem runs_shiftB (next : exec i s = .next (shiftB arith d k s)) : ShiftB i s arith d k := by
  have ⟨keepsD, keepsH⟩ := shiftResult_keeps arith k (s.readB d) s
  refine ⟨_, next, (((Frame.refl s).writeB (List.mem_singleton_self _) _).setFlags _).took _, rfl, rfl,
    readB_writeB_other .., keepsD, keepsH, fun range => ⟨?_, shiftResult_flags arith _ s (by decide) range rfl⟩⟩
  exact (readB_writeB_self ..).trans (congrArg Prod.fst (shiftResult_inRange arith _ s range))

theorem runs_shiftW (next : exec i s = .next (shiftW arith d k s)) : ShiftW i s arith d k := by
  have ⟨keepsD, keepsH⟩ := shiftResult_keeps arith k (s.readW d) s
  refine ⟨_, next, (((Frame.refl s).writeW (List.mem_singleton_self _) _).setFlags _).took _, rfl, rfl,
    keepsD, keepsH, fun range => ⟨?_, shiftResult_flags arith _ s (by decide) range rfl⟩⟩
  exact (readW_writeW_self ..).trans (congrArg Prod.fst (shiftResult_inRange arith _ s range))

theorem runs_shiftL (next : exec i s = .next (shiftL arith d k s)) : ShiftL i s arith d k := by
  have ⟨keepsD, keepsH⟩ := shiftResult_keeps arith k (s.readL d) s
  refine ⟨_, next, (((Frame.refl s).writeL (fun _ h => h) _).setFlags _).took _, rfl, rfl,
    keepsD, keepsH, fun range => ⟨?_, shiftResult_flags arith _ s (by decide) range rfl⟩⟩
  exact (readL_writeL_self ..).trans (congrArg Prod.fst (shiftResult_inRange arith _ s range))

end

/-- Settles O46: by induction on the one-position steps of each kind of shift. -/
theorem shiftResults : Obligations.ShiftResults := fun _ _ _ _ _ =>
  ⟨runs_shiftB rfl, runs_shiftW rfl, runs_shiftL rfl, runs_shiftB rfl, runs_shiftW rfl, runs_shiftL rfl,
    runs_shiftB rfl, runs_shiftW rfl, runs_shiftL rfl, runs_shiftB rfl, runs_shiftW rfl, runs_shiftL rfl,
    runs_shiftB rfl, runs_shiftW rfl, runs_shiftL rfl, runs_shiftB rfl, runs_shiftW rfl, runs_shiftL rfl⟩

end Sys2Proof.Machine
end

section
/-! One iteration of a block instruction (46_block_string R410, R412). -/

namespace Sys2Proof.Machine

/-! ### Registers kept apart -/

theorem overlap_eq_false {xs ys : List RegField} : overlap xs ys = false ↔ xs.Disjoint ys := by
  rw [← Bool.not_eq_true, overlap_iff]
  exact ⟨fun h x hx hy => h ⟨x, hx, hy⟩, fun h ⟨x, hx, hy⟩ => h hx hy⟩

theorem separate_iff {l : List (List RegField)} : separate l = true ↔ l.Pairwise List.Disjoint := by
  induction l with
  | nil => simp [separate]
  | cons x xs ih => simp [separate, ih, overlap_eq_false]

/-- Fewer lists are kept apart too. -/
theorem separate_sublist {l l' : List (List RegField)} (h : separate l = true) (sub : l'.Sublist l) :
    separate l' = true := separate_iff.mpr ((separate_iff.mp h).sublist sub)

theorem offField_mem (s : State) (f : RegField) : s.offField f ∈ s.pointerFields f := by
  rw [State.offField, State.pointerFields]
  split <;> simp

/-! ### Pointers and counter -/

/-- The pointers of a block after their step. -/
def State.stepPointers (s : State) (ptrs : List RegField) (k : Word) : State :=
  ptrs.foldl (fun t p => t.stepPointer p k) s

theorem stepBlock_eq (s : State) (ptrs : List RegField) (k : Word) (cnt : RegField) :
    s.stepBlock ptrs k cnt =
      (s.stepPointers ptrs k).writeW cnt ((s.stepPointers ptrs k).readW cnt - 1#16) := rfl

section
variable {s : State} {ptrs : List RegField} {k : Word} {cnt r : RegField}

theorem stepPointers_same (s : State) (ptrs : List RegField) (k : Word) :
    (s.stepPointers ptrs k).fcw = s.fcw ∧ (s.stepPointers ptrs k).cfg = s.cfg ∧ (s.stepPointers ptrs k).mem = s.mem ∧
      (s.stepPointers ptrs k).pcSeg = s.pcSeg ∧ (s.stepPointers ptrs k).pcOff = s.pcOff := by
  induction ptrs generalizing s with
  | nil => exact ⟨rfl, rfl, rfl, rfl, rfl⟩
  | cons _ _ ih => exact ih _

theorem Frame.stepPointers {t : State} {slots : List (Fin 18)} {keys : List Nat} (h : Frame s t slots keys)
    (hs : ∀ p ∈ ptrs, s.slot (s.offField p) ∈ slots) : Frame s (t.stepPointers ptrs k) slots keys := by
  induction ptrs generalizing t with
  | nil => exact h
  | cons p ps ih => exact ih (h.stepPointer (hs p (List.mem_cons_self ..)) k) fun q hq => hs q (List.mem_cons_of_mem _ hq)

theorem Frame.stepBlock {t : State} {slots : List (Fin 18)} {keys : List Nat} (h : Frame s t slots keys)
    (hs : ∀ i ∈ s.blockSlots ptrs cnt, i ∈ slots) : Frame s (t.stepBlock ptrs k cnt) slots keys :=
  (h.stepPointers fun _ hp => hs _ (List.mem_append_left _ (List.mem_map_of_mem hp))).writeW
    (hs _ (List.mem_append_right _ (List.mem_singleton_self _))) _

/-- A register of none of the pointers keeps its value. -/
theorem readW_stepPointers (h : ∀ p ∈ ptrs, r ∉ s.pointerFields p) : (s.stepPointers ptrs k).readW r = s.readW r := by
  induction ptrs generalizing s with
  | nil => rfl
  | cons p ps ih =>
    refine (ih (s := s.stepPointer p k) fun q hq => h q (List.mem_cons_of_mem _ hq)).trans ?_
    exact readW_writeW_ne _ _ fun e => h p (List.mem_cons_self ..) (e ▸ offField_mem s p)

/-- A register that is neither the counter nor of a pointer keeps its value. -/
theorem readW_stepBlock (h : ∀ p ∈ ptrs, r ∉ s.pointerFields p) (other : r ≠ cnt) :
    (s.stepBlock ptrs k cnt).readW r = s.readW r :=
  (readW_writeW_ne _ _ other).trans (readW_stepPointers h)

/-- A pointer apart from those that step stays. -/
theorem pointer_stepPointers {q : RegField} (h : ∀ p ∈ ptrs, (s.pointerFields p).Disjoint (s.pointerFields q)) :
    (s.stepPointers ptrs k).pointer q = s.pointer q := by
  induction ptrs generalizing s with
  | nil => rfl
  | cons p ps ih =>
    refine (ih (s := s.stepPointer p k) fun q hq => h q (List.mem_cons_of_mem _ hq)).trans ?_
    exact pointer_writeW _ (h p (List.mem_cons_self ..) (offField_mem s p))

/-- Every pointer of a block steps once. -/
theorem pointer_stepPointers_mem (apart : (ptrs.map s.pointerFields).Pairwise List.Disjoint) {p : RegField}
    (hp : p ∈ ptrs) : (s.stepPointers ptrs k).pointer p = (s.pointer p).add k := by
  induction ptrs generalizing s with
  | nil => cases hp
  | cons q ps ih =>
    obtain ⟨first, rest⟩ := List.pairwise_cons.mp apart
    rcases List.mem_cons.mp hp with rfl | later
    · refine (pointer_stepPointers (s := s.stepPointer p k) fun r hr => ?_).trans (pointer_stepPointer s p k)
      exact (first _ (List.mem_map_of_mem hr)).symm
    · refine (ih (s := s.stepPointer q k) rest later).trans ?_
      exact congrArg (Address.add · k) (pointer_writeW _ (first _ (List.mem_map_of_mem later) (offField_mem s q)))

variable (apart : separate (ptrs.map s.pointerFields ++ [[cnt]]) = true)
include apart

/-- What one iteration does to its pointers and its counter. -/
theorem stepBlock_registers : (∀ p ∈ ptrs, (s.stepBlock ptrs k cnt).pointer p = (s.pointer p).add k) ∧
    (s.stepBlock ptrs k cnt).readW cnt = s.readW cnt - 1#16 := by
  obtain ⟨pointers, -, counter⟩ := List.pairwise_append.mp (separate_iff.mp apart)
  have outside : ∀ p ∈ ptrs, cnt ∉ s.pointerFields p := fun p hp inside =>
    counter _ (List.mem_map_of_mem hp) _ (List.mem_singleton_self _) inside (List.mem_singleton_self _)
  have segmented : (s.stepPointers ptrs k).segmented = s.segmented := by
    obtain ⟨fcw, cfg, -⟩ := stepPointers_same s ptrs k
    rw [State.segmented, fcw, cfg]
    rfl
  rw [stepBlock_eq, readW_stepPointers outside]
  refine ⟨fun p hp => ?_, readW_writeW_self ..⟩
  rw [pointer_writeW, pointer_stepPointers_mem pointers hp]
  rw [State.pointerFields, segmented]
  exact outside p hp

/-- P/V after one iteration. -/
theorem stepBlock_counted : (s.stepBlock ptrs k cnt).counted cnt = (s.readW cnt == 1#16) := by
  rw [State.counted, (stepBlock_registers apart).2, Bool.eq_iff_iff, beq_iff_eq, beq_iff_eq, sub_one_eq_zero]

end

/-- Registers, program status and configuration of `u` are those of `s`. -/
structure SameCpu (s u : State) : Prop where
  regs : u.regs = s.regs
  fcw : u.fcw = s.fcw
  cfg : u.cfg = s.cfg
  pcSeg : u.pcSeg = s.pcSeg
  pcOff : u.pcOff = s.pcOff

namespace SameCpu
variable {s u : State}

theorem refl (s : State) : SameCpu s s := ⟨rfl, rfl, rfl, rfl, rfl⟩

theorem writeByte (h : SameCpu s u) (a : Address) (v : Byte) : SameCpu s (u.writeByte a v) :=
  ⟨h.regs, h.fcw, h.cfg, h.pcSeg, h.pcOff⟩

theorem pokeWord (h : SameCpu s u) (a : Address) (v : Word) : SameCpu s (u.pokeWord a v) :=
  (h.writeByte _ _).writeByte _ _

theorem segmented (h : SameCpu s u) : u.segmented = s.segmented := by rw [State.segmented, h.fcw, h.cfg]; rfl

theorem readW (h : SameCpu s u) (r : RegField) : u.readW r = s.readW r := by
  rw [State.readW, h.regs, State.slot, h.cfg, h.fcw]
  rfl

theorem pointer (h : SameCpu s u) (p : RegField) : u.pointer p = s.pointer p := by
  rw [State.pointer, State.pointer, h.segmented, h.readW, h.readW, State.curSeg, State.curSeg, h.cfg, h.pcSeg]

theorem pointerFields (h : SameCpu s u) : u.pointerFields = s.pointerFields := by
  funext p
  rw [State.pointerFields, State.pointerFields, h.segmented]

/-- The step of the pointers and the counter from `u`. -/
theorem stepBlock (h : SameCpu s u) {ptrs : List RegField} {cnt : RegField}
    (apart : separate (ptrs.map s.pointerFields ++ [[cnt]]) = true) (k : Word) :
    (∀ p ∈ ptrs, (u.stepBlock ptrs k cnt).pointer p = (s.pointer p).add k) ∧
      (u.stepBlock ptrs k cnt).readW cnt = s.readW cnt - 1#16 ∧
      (u.stepBlock ptrs k cnt).counted cnt = (s.readW cnt == 1#16) := by
  rw [← h.pointerFields] at apart
  obtain ⟨pointers, count⟩ := stepBlock_registers (k := k) apart
  refine ⟨fun p hp => ?_, ?_, ?_⟩
  · rw [pointers p hp, h.pointer]
  · rw [count, h.readW]
  · rw [stepBlock_counted apart, h.readW]

end SameCpu

/-! ### The end of an iteration -/

/-- A single form, or one iteration of a repeat form. -/
def iterate (rep : Bool) (x : Exec (State × Bool)) : Exec State := if rep then repeated x else once x

theorem iterate_ok (rep : Bool) (t : State) (hit : Bool) :
    iterate rep (.ok (t, hit)) = .ok (t.again (!rep || (hit || t.flags.pv))) := by
  cases rep <;> rfl

theorem again_pcSeg (s : State) (done : Bool) : (s.again done).pcSeg = s.pcSeg := by
  cases done <;> rfl

theorem again_pointer (s : State) (done : Bool) (p : RegField) : (s.again done).pointer p = s.pointer p := by
  cases done <;> rfl

theorem again_readW (s : State) (done : Bool) (r : RegField) : (s.again done).readW r = s.readW r := by
  cases done <;> rfl

theorem again_readB (s : State) (done : Bool) (r : RegField) : (s.again done).readB r = s.readB r := by
  cases done <;> rfl

/-- An iteration that leaves `w` and the flags `fl`: pointers, counter, PC, and what else is said of the result. -/
theorem runs_iteration {i : Instr} {s base w : State} {fl : Flags} {j : Nat} {rep hit : Bool} {ptrs : List RegField}
    {k : Word} {cnt : RegField} {slots : List (Fin 18)} {keys : List Nat} {post : State → Prop}
    (next : exec i s = finish (iterate rep (.ok ((w.setFlags fl).took j, hit)))) (frame : Frame base w slots keys)
    (pcSeg : w.pcSeg = s.pcSeg) (pcOff : w.pcOff = s.pcOff) (pointers : ∀ p ∈ ptrs, w.pointer p = (s.pointer p).add k)
    (count : w.readW cnt = s.readW cnt - 1#16) (pv : fl.pv = (s.readW cnt == 1#16))
    (rest : ∀ t : State, t.flags = fl → t.mem = w.mem → (∀ r, t.readB r = w.readB r) → post t) :
    RunsFrom i s base slots keys fun t => t.pcSeg = s.pcSeg ∧
      t.pcOff = repeatPc s (!rep || hit || s.readW cnt == 1#16) ∧ Stepped s t ptrs k cnt ∧ post t := by
  rw [iterate_ok, show ((w.setFlags fl).took j).flags.pv = _ from pv] at next
  refine ⟨_, next, ((frame.setFlags fl).took j).again _, (again_pcSeg ..).trans pcSeg, ?_, ⟨fun p hp => ?_, ?_, ?_⟩, rest _ ?_ ?_ ?_⟩
  · rw [again_pc, show ((w.setFlags fl).took j).pcOff = _ from pcOff, Bool.or_assoc]
    rfl
  · exact (again_pointer ..).trans (pointers p hp)
  · exact (again_readW ..).trans count
  · rw [State.flags, again_fcw]
    exact pv.trans (by rw [beq_eq_decide])
  · rw [State.flags, again_fcw]
    rfl
  · exact again_mem ..
  · exact again_readB _ _

end Sys2Proof.Machine
end

section
/-! Block transfer and string manipulation (46_block_string R420 to R448). -/

namespace Sys2Proof.Machine

section
variable {i : Instr} {s : State} {rep : Bool} {k : Word} {f cnt d : RegField} {cc : BitVec 4}

/-! ### Search -/

/-- A search that reads the element `b`. -/
theorem searchClaim {n : Nat} (hn : 0 < n) {get : State → Address → Exec (BitVec n)} {v b : BitVec n} {home : RegField}
    (apart : separate [s.pointerFields f, [cnt], [home]] = true) (reads : get s (s.pointer f) = .ok b)
    (meaning : exec i s = finish (iterate rep (searchStep get v home k f cnt cc s))) :
    SearchClaim i s rep v b k f cnt cc := by
  have apart' : separate ([f].map s.pointerFields ++ [[cnt]]) = true :=
    separate_sublist apart (.cons_cons _ (.cons_cons _ (List.nil_sublist _)))
  have step : searchStep get v home k f cnt cc s =
      .ok (((s.stepBlock [f] k cnt).setFlags { s.flags with
        z := cond cc (diffFlags v b false s.flags), c := s.freshBit 0, s := s.freshBit 1,
        pv := (s.stepBlock [f] k cnt).counted cnt }).took 2, cond cc (diffFlags v b false s.flags)) := by
    simp only [searchStep, apart, reads, subAlu_eq hn]
    rfl
  obtain ⟨pointers, count, counted⟩ := (SameCpu.refl s).stepBlock apart' k
  refine runs_iteration (meaning.trans (congrArg (fun x => finish (iterate rep x)) step))
    ((Frame.refl s).stepBlock fun _ h => h) rfl rfl pointers count counted fun t flags _ _ => ?_
  rw [flags]
  exact ⟨rfl, rfl, rfl⟩

/-! ### Comparison of two strings -/

theorem compareClaim {n : Nat} (hn : 0 < n) {get : State → Address → Exec (BitVec n)} {a b : BitVec n}
    (apart : separate ([d, f].map s.pointerFields ++ [[cnt]]) = true) (readsA : get s (s.pointer d) = .ok a)
    (readsB : get s (s.pointer f) = .ok b)
    (meaning : exec i s = finish (iterate rep (compareStep get k f cnt d cc s))) :
    CompareClaim i s rep a b k f cnt d cc := by
  have step : compareStep get k f cnt d cc s =
      .ok (((s.stepBlock [d, f] k cnt).setFlags { s.flags with
        z := cond cc (diffFlags a b false s.flags), c := (diffFlags a b false s.flags).c,
        s := (diffFlags a b false s.flags).s, pv := (s.stepBlock [d, f] k cnt).counted cnt }).took 0,
        cond cc (diffFlags a b false s.flags)) := by
    have apart' : separate [s.pointerFields d, s.pointerFields f, [cnt]] = true := apart
    simp only [compareStep, apart', readsA, readsB, subAlu_eq hn]
    rfl
  obtain ⟨pointers, count, counted⟩ := (SameCpu.refl s).stepBlock apart k
  refine runs_iteration (meaning.trans (congrArg (fun x => finish (iterate rep x)) step))
    ((Frame.refl s).stepBlock fun _ h => h) rfl rfl pointers count counted fun t flags _ _ => ?_
  rw [flags]
  exact ⟨rfl, rfl, rfl, rfl, rfl⟩

/-! ### Block moves -/

/-- A move whose store leaves `u`. -/
theorem moveClaim {n bytes : Nat} {get : State → Address → Exec (BitVec n)}
    {store : State → Address → BitVec n → Exec State} {v : BitVec n} {u : State}
    (apart : separate ([d, f].map s.pointerFields ++ [[cnt]]) = true)
    (spares : (!rep || s.sparesOwnWords (s.pointer d) (n / 8)) = true) (reads : get s (s.pointer f) = .ok v)
    (stores : store s (s.pointer d) v = .ok u) (frame : Frame s u [] ((s.pointer d).bytes bytes)) (same : SameCpu s u)
    (moved : ∀ j < bytes, u.mem.read ((s.pointer d).keyAt j) = s.mem.read ((s.pointer f).keyAt j))
    (meaning : exec i s = finish (iterate rep (moveStep rep get store k f cnt d s))) :
    MoveClaim i s rep bytes k f cnt d := by
  have step : moveStep rep get store k f cnt d s =
      .ok (((u.stepBlock [d, f] k cnt).setFlags { s.flags with
        z := s.freshBit 0, pv := (u.stepBlock [d, f] k cnt).counted cnt }).took 1, false) := by
    have apart' : separate [s.pointerFields d, s.pointerFields f, [cnt]] = true := apart
    unfold moveStep
    rw [apart', spares, reads]
    show (store s (s.pointer d) v >>= _) = _
    rw [stores]
    rfl
  obtain ⟨pointers, count, counted⟩ := same.stepBlock apart k
  have run := runs_iteration (post := fun t => (∀ j < bytes, t.mem.read ((s.pointer d).keyAt j) =
        s.mem.read ((s.pointer f).keyAt j)) ∧ blockFlags s t)
    (meaning.trans (congrArg (fun x => finish (iterate rep x)) step))
    ((frame.mono (slots' := s.blockSlots [d, f] cnt) (List.nil_subset _) (fun _ h => h)).stepBlock (fun _ h => h))
    same.pcSeg same.pcOff pointers count counted fun t flags mem _ => ?_
  · rwa [Bool.or_false] at run
  · rw [blockFlags, flags, mem]
    exact ⟨moved, rfl, rfl, rfl, rfl⟩

theorem key_mem_bytes (a : Address) : a.key ∈ a.bytes 1 := keyAt_zero a ▸ keyAt_mem_bytes a (by decide)

theorem moveClaim_byte (apart : separate ([d, f].map s.pointerFields ++ [[cnt]]) = true)
    (spares : (!rep || s.sparesOwnWords (s.pointer d) 1) = true)
    (meaning : exec i s = finish (iterate rep (moveStep rep getB storeB k f cnt d s))) :
    MoveClaim i s rep 1 k f cnt d := by
  refine moveClaim (n := 8) (get := getB) (store := storeB) (v := s.readByte (s.pointer f))
    (u := s.writeByte (s.pointer d) (s.readByte (s.pointer f))) apart spares rfl rfl ((Frame.refl s).writeByte (key_mem_bytes _) _)
    ((SameCpu.refl s).writeByte _ _) (fun j hj => ?_) meaning
  rw [Nat.lt_one_iff.mp hj, keyAt_zero, keyAt_zero]
  exact readByte_writeByte_self ..

theorem moveClaim_word (apart : separate ([d, f].map s.pointerFields ++ [[cnt]]) = true)
    (evenD : (s.pointer d).even = true) (evenF : (s.pointer f).even = true)
    (spares : (!rep || s.sparesOwnWords (s.pointer d) 2) = true)
    (meaning : exec i s = finish (iterate rep (moveStep rep getW storeW k f cnt d s))) :
    MoveClaim i s rep 2 k f cnt d := by
  refine moveClaim apart spares (readWord_even evenF) (writeWord_even evenD)
    ((Frame.refl s).pokeWord (fun _ h => keyAt_mem_bytes _ h) _) ((SameCpu.refl s).pokeWord _ _) (fun j hj => ?_) meaning
  obtain ⟨high, low⟩ := pokeWord_bytes s (s.pointer d) (s.peekWord (s.pointer f))
  rcases j with _ | _ | j
  · exact high.trans ((BitVec.extractLsb'_append_eq_left).trans (by rw [keyAt_zero]; rfl))
  · exact low.trans BitVec.extractLsb'_append_eq_right
  · omega

/-! ### Translation -/

/-- What is known of the registers of a translation. -/
theorem translate_apart (apart : separate [s.pointerFields d, s.pointerFields f, [cnt], [1#4]] = true) :
    separate ([d].map s.pointerFields ++ [[cnt]]) = true ∧ 1#4 ∉ s.pointerFields d ∧ 1#4 ≠ cnt := by
  refine ⟨separate_sublist apart (.cons_cons _ (.cons _ (.cons_cons _ (List.nil_sublist _)))), ?_, ?_⟩
  · have two : separate [s.pointerFields d, [1#4]] = true :=
      separate_sublist apart (.cons_cons _ (.cons _ (.cons _ (.cons_cons _ (List.nil_sublist _)))))
    simp only [separate, overlap, List.all_cons, List.all_nil, Bool.and_true, Bool.not_eq_true', List.any_eq_false,
      List.contains_cons, List.contains_nil, Bool.or_false, beq_iff_eq] at two
    exact fun inside => two _ inside rfl
  · have two : separate [[cnt], [1#4]] = true :=
      separate_sublist apart (.cons _ (.cons _ (.cons_cons _ (.cons_cons _ (List.nil_sublist _)))))
    intro e
    simp [separate, overlap, ← e] at two

/-- Storing into R1 leaves pointers and counter of a translation. -/
theorem translate_writeB (apart : separate [s.pointerFields d, s.pointerFields f, [cnt], [1#4]] = true) {u : State}
    (same : SameCpu s u) (v : Byte) :
    (∀ p ∈ [d], ((u.stepBlock [d] k cnt).writeB 1#4 v).pointer p = (s.pointer p).add k) ∧
      ((u.stepBlock [d] k cnt).writeB 1#4 v).readW cnt = s.readW cnt - 1#16 ∧
      (u.stepBlock [d] k cnt).counted cnt = (s.readW cnt == 1#16) := by
  obtain ⟨apart', outside, other⟩ := translate_apart apart
  obtain ⟨pointers, count, counted⟩ := same.stepBlock apart' k
  refine ⟨fun p hp => ?_, (readW_writeW_ne _ _ (Ne.symm other)).trans count, counted⟩
  refine Eq.trans (pointer_writeW _ ?_) (pointers p hp)
  rw [List.mem_singleton.mp hp]
  exact (congrFun same.pointerFields d) ▸ outside

/-- RL1 after a translation. -/
theorem translate_otherByte (apart : separate [s.pointerFields d, s.pointerFields f, [cnt], [1#4]] = true) {u : State}
    (same : SameCpu s u) (v : Byte) : ((u.stepBlock [d] k cnt).writeB 1#4 v).readB 9#4 = s.readB 9#4 := by
  obtain ⟨-, outside, other⟩ := translate_apart apart
  have kept : (u.stepBlock [d] k cnt).readW 1#4 = s.readW 1#4 := by
    refine (readW_stepBlock (fun p hp => ?_) other).trans (same.readW _)
    rw [List.mem_singleton.mp hp, same.pointerFields]
    exact outside
  exact (readB_writeB_other _ 1#4 v).trans (congrArg (BitVec.extractLsb' 0 8) kept)

theorem translateStep_ok (apart : separate [s.pointerFields d, s.pointerFields f, [cnt], [1#4]] = true)
    (spares : (!rep || s.sparesOwnWords (s.pointer d) 1) = true) : translateStep rep k d cnt f s =
      .ok (((((s.writeByte (s.pointer d) (s.translation d f)).stepBlock [d] k cnt).writeB 1#4
          (s.fresh 0 8)).setFlags
        { s.flags with z := s.freshBit 1,
                       pv := ((s.writeByte (s.pointer d) (s.translation d f)).stepBlock [d] k cnt).counted cnt }).took 2,
        false) := by
  unfold translateStep translateRegs
  rw [apart, spares]
  rfl

theorem translateClaim (apart : separate [s.pointerFields d, s.pointerFields f, [cnt], [1#4]] = true)
    (spares : (!rep || s.sparesOwnWords (s.pointer d) 1) = true)
    (meaning : exec i s = finish (iterate rep (translateStep rep k d cnt f s))) : TranslateClaim i s rep k d cnt f := by
  have same : SameCpu s (s.writeByte (s.pointer d) (s.translation d f)) := (SameCpu.refl s).writeByte _ _
  have step := translateStep_ok (k := k) apart spares
  obtain ⟨pointers, count, counted⟩ := translate_writeB (k := k) apart same (s.fresh 0 8)
  have frame : Frame s (s.writeByte (s.pointer d) (s.translation d f)) (s.slot 1#4 :: s.blockSlots [d] cnt)
      ((s.pointer d).bytes 1) := (Frame.refl s).writeByte (key_mem_bytes _) _
  have run := runs_iteration (post := fun t => t.readByte (s.pointer d) = s.translation d f ∧
        t.readB 9#4 = s.readB 9#4 ∧ blockFlags s t)
    (meaning.trans (congrArg (fun x => finish (iterate rep x)) step))
    ((frame.stepBlock (fun _ h => List.mem_cons_of_mem _ h)).writeB (List.mem_cons_self ..) _)
    same.pcSeg same.pcOff pointers count counted fun t flags mem bytes => ?_
  · rwa [Bool.or_false] at run
  · rw [blockFlags, flags, bytes, translate_otherByte apart same, State.readByte, mem]
    exact ⟨readByte_writeByte_self .., rfl, rfl, rfl, rfl, rfl⟩

theorem translateTestClaim (apart : separate [s.pointerFields d, s.pointerFields f, [cnt], [1#4]] = true)
    (meaning : exec i s = finish (iterate rep (translateTestStep k d cnt f s))) :
    TranslateTestClaim i s rep k d cnt f := by
  have step : translateTestStep k d cnt f s =
      .ok ((((s.stepBlock [d] k cnt).writeB 1#4 (s.translation d f)).setFlags
        { s.flags with z := s.translation d f == 0#8, pv := (s.stepBlock [d] k cnt).counted cnt }).took 0,
        s.translation d f != 0#8) := by
    unfold translateTestStep translateRegs
    rw [apart]
    rfl
  obtain ⟨pointers, count, counted⟩ := translate_writeB (k := k) apart (.refl s) (s.translation d f)
  refine runs_iteration (meaning.trans (congrArg (fun x => finish (iterate rep x)) step))
    (((Frame.refl s).stepBlock (fun _ h => List.mem_cons_of_mem _ h)).writeB (List.mem_cons_self ..) _)
    rfl rfl pointers count counted fun t flags _ bytes => ?_
  rw [blockFlags, flags, bytes, bytes, translate_otherByte apart (.refl s)]
  exact ⟨readB_writeB_self .., rfl, beq_eq_decide .., rfl, rfl, rfl, rfl⟩

end

/-! ### The obligations -/

/-- Settles O47. -/
theorem searchString : Obligations.SearchString := fun _ _ _ _ _ =>
  ⟨fun apart => ⟨searchClaim (rep := false) (by decide) apart rfl rfl, searchClaim (rep := false) (by decide) apart rfl rfl,
      searchClaim (rep := true) (by decide) apart rfl rfl, searchClaim (rep := true) (by decide) apart rfl rfl⟩,
    fun apart even => ⟨searchClaim (rep := false) (by decide) apart (readWord_even even) rfl,
      searchClaim (rep := false) (by decide) apart (readWord_even even) rfl,
      searchClaim (rep := true) (by decide) apart (readWord_even even) rfl,
      searchClaim (rep := true) (by decide) apart (readWord_even even) rfl⟩⟩

/-- Settles O48. -/
theorem compareStrings : Obligations.CompareStrings := fun _ _ _ _ _ apart =>
  ⟨⟨compareClaim (rep := false) (by decide) apart rfl rfl rfl, compareClaim (rep := false) (by decide) apart rfl rfl rfl,
      compareClaim (rep := true) (by decide) apart rfl rfl rfl, compareClaim (rep := true) (by decide) apart rfl rfl rfl⟩,
    fun evenD evenF =>
      have readsD := readWord_even evenD
      have readsF := readWord_even evenF
      ⟨compareClaim (rep := false) (by decide) apart readsD readsF rfl,
        compareClaim (rep := false) (by decide) apart readsD readsF rfl,
        compareClaim (rep := true) (by decide) apart readsD readsF rfl,
        compareClaim (rep := true) (by decide) apart readsD readsF rfl⟩⟩

/-- Settles O49. -/
theorem moveBlock : Obligations.MoveBlock := fun _ _ _ _ apart =>
  ⟨moveClaim_byte (rep := false) apart rfl rfl, moveClaim_byte (rep := false) apart rfl rfl,
    fun spares => ⟨moveClaim_byte (rep := true) apart spares rfl, moveClaim_byte (rep := true) apart spares rfl⟩,
    fun evenD evenF =>
      ⟨moveClaim_word (rep := false) apart evenD evenF rfl rfl, moveClaim_word (rep := false) apart evenD evenF rfl rfl,
        fun spares => ⟨moveClaim_word (rep := true) apart evenD evenF spares rfl,
          moveClaim_word (rep := true) apart evenD evenF spares rfl⟩⟩⟩

/-- Settles O50. -/
theorem translateString : Obligations.TranslateString := fun _ _ _ _ apart =>
  ⟨translateClaim (rep := false) apart rfl rfl, translateClaim (rep := false) apart rfl rfl,
    fun spares => ⟨translateClaim (rep := true) apart spares rfl, translateClaim (rep := true) apart spares rfl⟩,
    translateTestClaim (rep := false) apart rfl, translateTestClaim (rep := false) apart rfl,
    translateTestClaim (rep := true) apart rfl, translateTestClaim (rep := true) apart rfl⟩

end Sys2Proof.Machine
end

section
/-! Input and output (47_io R460 to R481). -/

namespace Sys2Proof.Machine

section
variable {i : Instr} {s : State} {rep wide : Bool} {k port : Word} {f cnt d : RegField} {space : IoSpace}

/-! ### One access -/

/-- The value that an input takes. -/
def State.inputValue (s : State) (wide : Bool) : Word :=
  if wide then s.ioReadValue else s.ioReadValue &&& 0x00FF#16

theorem ioRead_eq (s : State) (space : IoSpace) (wide : Bool) (port : Word) : s.ioRead space wide port =
    (s.inputValue wide, (s.afterInput space wide port (s.inputValue wide)).took 1) := rfl

theorem isAnswer_inputValue (s : State) (wide : Bool) : IsAnswer s wide (s.inputValue wide) := by
  intro w rest more
  rw [State.inputValue, State.ioReadValue, more]
  rfl

/-! ### Single transfers -/

theorem runs_inputB (next : exec i s = .next (inputB space d port s)) :
    ∃ v, IsAnswer s false v ∧ RunsFrom i s (s.afterInput space false port v) [s.slotB d] [] fun t =>
      t.pcSeg = s.pcSeg ∧ t.pcOff = s.pcOff ∧ t.readB d = v.extractLsb' 0 8 ∧
        t.readB (d ^^^ 8#4) = s.readB (d ^^^ 8#4) ∧ t.flags = s.flags := by
  rw [inputB, ioRead_eq] at next
  exact ⟨_, isAnswer_inputValue s false, _, next, ((Frame.refl _).took 1).writeB (List.mem_singleton_self _) _, rfl, rfl,
    readB_writeB_self .., readB_writeB_other .., rfl⟩

theorem runs_inputW (next : exec i s = .next (inputW space d port s)) :
    ∃ v, IsAnswer s true v ∧ RunsFrom i s (s.afterInput space true port v) [s.slot d] [] fun t =>
      t.pcSeg = s.pcSeg ∧ t.pcOff = s.pcOff ∧ t.readW d = v ∧ t.flags = s.flags := by
  rw [inputW, ioRead_eq] at next
  exact ⟨_, isAnswer_inputValue s true, _, next, ((Frame.refl _).took 1).writeW (List.mem_singleton_self _) _, rfl, rfl,
    readW_writeW_self .., rfl⟩

theorem runs_output {v : Word} (next : exec i s = .next (s.ioWrite space wide port v)) :
    RunsFrom i s (s.afterOutput space wide port v) [] [] fun t =>
      t.pcSeg = s.pcSeg ∧ t.pcOff = s.pcOff ∧ t.flags = s.flags :=
  ⟨_, next, Frame.refl _, rfl, rfl, rfl⟩

end

/-- In system mode a privileged instruction is its body. -/
theorem finish_privileged {s : State} (sn : s.fcw.sn = true) (i : Instr) (body : Exec State) :
    finish (s.privileged i body) = finish body := by rw [privileged_system sn]

/-- Settles O53. -/
theorem singleTransfer : Obligations.SingleTransfer := by
  intro s r p w sn
  have byte (v : Byte) : v.setWidth 16 = 0#8 ++ v := setWidth_eq_append v
  refine ⟨runs_inputB (finish_privileged sn ..), runs_inputW (finish_privileged sn ..), ?_,
    runs_output (finish_privileged sn ..), runs_inputB (finish_privileged sn ..), runs_inputW (finish_privileged sn ..), ?_,
    runs_output (finish_privileged sn ..)⟩
  · rw [← byte]
    exact runs_output (finish_privileged sn ..)
  · rw [← byte]
    exact runs_output (finish_privileged sn ..)

/-! ### Block transfers -/

theorem readByte_of_mem {t u : State} (h : t.mem = u.mem) (a : Address) : t.readByte a = u.readByte a := by
  rw [State.readByte, h]
  rfl

theorem peekWord_of_mem {t u : State} (h : t.mem = u.mem) (a : Address) : t.peekWord a = u.peekWord a := by
  rw [State.peekWord, readByte_of_mem h, readByte_of_mem h]
  rfl

section
variable {i : Instr} {s : State} {rep wide : Bool} {k : Word} {f cnt d : RegField} {space : IoSpace}

theorem ioApart {p x : RegField} (apart : separate [s.pointerFields p, [x], [cnt]] = true) :
    separate ([p].map s.pointerFields ++ [[cnt]]) = true :=
  separate_sublist apart (.cons_cons _ (.cons _ (.cons_cons _ (List.nil_sublist _))))

/-- A block input whose store leaves `u`. -/
theorem inputClaim {n : Nat} {store : State → Address → BitVec n → Exec State} {u : State}
    (apart : separate [s.pointerFields d, [f], [cnt]] = true)
    (spares : (!rep || s.sparesOwnWords (s.pointer d) (n / 8)) = true) (width : (n == 16) = wide)
    (stores : store ((s.afterInput space wide (s.readW f) (s.inputValue wide)).took 1) (s.pointer d)
      ((s.inputValue wide).setWidth n) = .ok u)
    (frame : Frame (s.afterInput space wide (s.readW f) (s.inputValue wide)) u []
      ((s.pointer d).bytes (if wide then 2 else 1)))
    (same : SameCpu s u)
    (stored : (wide = true → u.peekWord (s.pointer d) = s.inputValue wide) ∧
      (wide = false → u.readByte (s.pointer d) = (s.inputValue wide).extractLsb' 0 8))
    (meaning : exec i s = finish (iterate rep (inputStep rep space store k f cnt d s))) :
    InputClaim i s rep space wide k f cnt d := by
  have step : inputStep rep space store k f cnt d s =
      .ok (((u.stepBlock [d] k cnt).setFlags { s.flags with
        z := (u.stepBlock [d] k cnt).freshBit 0, pv := (u.stepBlock [d] k cnt).counted cnt }).took 1, false) := by
    unfold inputStep
    rw [apart, spares, width, ioRead_eq]
    show (store ((s.afterInput space wide (s.readW f) (s.inputValue wide)).took 1) (s.pointer d)
      ((s.inputValue wide).setWidth n) >>= _) = _
    rw [stores]
    rfl
  obtain ⟨pointers, count, counted⟩ := same.stepBlock (ioApart apart) k
  refine ⟨_, isAnswer_inputValue s wide, ?_⟩
  have run := runs_iteration (post := fun t => (wide = true → t.peekWord (s.pointer d) = s.inputValue wide) ∧
      (wide = false → t.readByte (s.pointer d) = (s.inputValue wide).extractLsb' 0 8) ∧ blockFlags s t)
    (meaning.trans (congrArg (fun x => finish (iterate rep x)) step))
    ((frame.mono (slots' := s.blockSlots [d] cnt) (List.nil_subset _) (fun _ h => h)).stepBlock (fun _ h => h))
    same.pcSeg same.pcOff pointers count counted fun t flags mem _ => ?_
  · rwa [Bool.or_false] at run
  · have mem' : t.mem = u.mem := mem
    rw [blockFlags, flags, peekWord_of_mem mem', readByte_of_mem mem']
    exact ⟨stored.1, stored.2, rfl, rfl, rfl, rfl⟩

theorem inputClaim_byte (apart : separate [s.pointerFields d, [f], [cnt]] = true)
    (spares : (!rep || s.sparesOwnWords (s.pointer d) 1) = true)
    (meaning : exec i s = finish (iterate rep (inputStep rep space storeB k f cnt d s))) :
    InputClaim i s rep space false k f cnt d := by
  obtain ⟨b, hb⟩ : ∃ b, s.afterInput space false (s.readW f) (s.inputValue false) = b := ⟨_, rfl⟩
  have frame : Frame b ((b.took 1).writeByte (s.pointer d) ((s.inputValue false).setWidth 8)) [] ((s.pointer d).bytes 1) :=
    ((Frame.refl _).took 1).writeByte (key_mem_bytes _) _
  have same : SameCpu s (b.took 1) := by
    rw [← hb]
    exact ⟨rfl, rfl, rfl, rfl, rfl⟩
  have same' := same.writeByte (s.pointer d) ((s.inputValue false).setWidth 8)
  rw [← hb] at frame same'
  exact inputClaim (n := 8) (store := storeB) apart spares rfl rfl frame same'
    ⟨nofun, fun _ => (readByte_writeByte_self ..).trans (BitVec.setWidth_eq_extractLsb' (by decide))⟩ meaning

theorem inputClaim_word (apart : separate [s.pointerFields d, [f], [cnt]] = true) (even : (s.pointer d).even = true)
    (spares : (!rep || s.sparesOwnWords (s.pointer d) 2) = true)
    (meaning : exec i s = finish (iterate rep (inputStep rep space storeW k f cnt d s))) :
    InputClaim i s rep space true k f cnt d := by
  obtain ⟨b, hb⟩ : ∃ b, s.afterInput space true (s.readW f) (s.inputValue true) = b := ⟨_, rfl⟩
  have frame : Frame b ((b.took 1).pokeWord (s.pointer d) ((s.inputValue true).setWidth 16)) [] ((s.pointer d).bytes 2) :=
    ((Frame.refl _).took 1).pokeWord (fun _ h => keyAt_mem_bytes _ h) _
  have same : SameCpu s (b.took 1) := by
    rw [← hb]
    exact ⟨rfl, rfl, rfl, rfl, rfl⟩
  have same' := same.pokeWord (s.pointer d) ((s.inputValue true).setWidth 16)
  rw [← hb] at frame same'
  exact inputClaim (n := 16) (store := storeW) apart spares rfl (writeWord_even even) frame same'
    ⟨fun _ => (peekWord_pokeWord_self ..).trans (BitVec.setWidth_eq _), nofun⟩ meaning

/-- A block output that reads the element `v`. -/
theorem outputClaim {n : Nat} {get : State → Address → Exec (BitVec n)} {v : BitVec n}
    (apart : separate [s.pointerFields f, [d], [cnt]] = true) (width : (n == 16) = wide)
    (reads : get s (s.pointer f) = .ok v)
    (value : v.setWidth 16 = if wide then s.peekWord (s.pointer f) else (s.readByte (s.pointer f)).setWidth 16)
    (meaning : exec i s = finish (iterate rep (outputStep space get k f cnt d s))) :
    OutputClaim i s rep space wide k f cnt d := by
  unfold OutputClaim
  rw [← value]
  obtain ⟨u, hu⟩ : ∃ u, s.afterOutput space wide (s.readW d) (v.setWidth 16) = u := ⟨_, rfl⟩
  have same : SameCpu s u := by
    rw [← hu]
    exact ⟨rfl, rfl, rfl, rfl, rfl⟩
  have step : outputStep space get k f cnt d s =
      .ok (((u.stepBlock [f] k cnt).setFlags { s.flags with
        z := (u.stepBlock [f] k cnt).freshBit 0, pv := (u.stepBlock [f] k cnt).counted cnt }).took 1, false) := by
    unfold outputStep
    rw [apart, reads, width, ← hu]
    rfl
  obtain ⟨pointers, count, counted⟩ := same.stepBlock (ioApart apart) k
  have slots : u.blockSlots [f] cnt = s.blockSlots [f] cnt := by
    rw [← hu]
    rfl
  have run := runs_iteration (post := fun t => blockFlags s t)
    (meaning.trans (congrArg (fun x => finish (iterate rep x)) step))
    ((Frame.refl (keys := []) u).stepBlock (fun _ h => h)) same.pcSeg same.pcOff pointers count counted fun t flags _ _ => ?_
  · rw [slots] at run
    dsimp only
    rw [hu]
    rwa [Bool.or_false] at run
  · rw [blockFlags, flags]
    exact ⟨rfl, rfl, rfl, rfl⟩

theorem outputClaim_byte (apart : separate [s.pointerFields f, [d], [cnt]] = true)
    (meaning : exec i s = finish (iterate rep (outputStep space getB k f cnt d s))) :
    OutputClaim i s rep space false k f cnt d := outputClaim apart rfl rfl rfl meaning

theorem outputClaim_word (apart : separate [s.pointerFields f, [d], [cnt]] = true) (even : (s.pointer f).even = true)
    (meaning : exec i s = finish (iterate rep (outputStep space getW k f cnt d s))) :
    OutputClaim i s rep space true k f cnt d :=
  outputClaim apart rfl (readWord_even even) (BitVec.setWidth_eq _) meaning

end

/-- Settles O54. -/
theorem blockInput : Obligations.BlockInput := by
  intro s f cnt d sn apart
  have system := fun i body => finish_privileged (s := s) sn i body
  refine ⟨?_, fun spares => ?_, fun even => ⟨?_, ?_, ?_, ?_, fun spares => ?_⟩⟩
  · and_intros <;> exact inputClaim_byte (rep := false) apart rfl (system ..)
  · and_intros <;> exact inputClaim_byte (rep := true) apart spares (system ..)
  iterate 4
    · exact inputClaim_word (rep := false) apart even rfl (system ..)
  · and_intros <;> exact inputClaim_word (rep := true) apart even spares (system ..)

/-- Settles O55. -/
theorem blockOutput : Obligations.BlockOutput := by
  intro s f cnt d sn apart
  have system := fun i body => finish_privileged (s := s) sn i body
  refine ⟨⟨?_, ?_, ?_, ?_, ?_⟩, fun even => ⟨?_, ?_, ?_, ?_, ?_⟩⟩
  iterate 4
    · exact outputClaim_byte (rep := false) apart (system ..)
  · and_intros <;> exact outputClaim_byte (rep := true) apart (system ..)
  iterate 4
    · exact outputClaim_word (rep := false) apart even (system ..)
  · and_intros <;> exact outputClaim_word (rep := true) apart even (system ..)

end Sys2Proof.Machine
end

section
/-! CPU control (48_cpu_control R511 to R533). -/

namespace Sys2Proof.Machine

/-! ### The flag byte -/

theorem toByte_clear (f : Flags) (m : BitVec 4) :
    Flags.toByte { f with c := f.c && !m.getLsbD 3, z := f.z && !m.getLsbD 2, s := f.s && !m.getLsbD 1,
                          pv := f.pv && !m.getLsbD 0 } = f.toByte &&& ~~~(m ++ 0#4) := by
  have all : ∀ (c z s pv d h : Bool) (m : BitVec 4),
      Flags.toByte ⟨c && !m.getLsbD 3, z && !m.getLsbD 2, s && !m.getLsbD 1, pv && !m.getLsbD 0, d, h⟩ =
        Flags.toByte ⟨c, z, s, pv, d, h⟩ &&& ~~~(m ++ 0#4) := by decide +kernel
  exact all ..

theorem toByte_set (f : Flags) (m : BitVec 4) :
    Flags.toByte { f with c := f.c || m.getLsbD 3, z := f.z || m.getLsbD 2, s := f.s || m.getLsbD 1,
                          pv := f.pv || m.getLsbD 0 } = f.toByte ||| (m ++ 0#4) := by
  have all : ∀ (c z s pv d h : Bool) (m : BitVec 4),
      Flags.toByte ⟨c || m.getLsbD 3, z || m.getLsbD 2, s || m.getLsbD 1, pv || m.getLsbD 0, d, h⟩ =
        Flags.toByte ⟨c, z, s, pv, d, h⟩ ||| (m ++ 0#4) := by decide +kernel
  exact all ..

/-- Settles O56. -/
theorem flagInstructions : Obligations.FlagInstructions := by
  intro s m r f
  have frame : Frame s s [] [] := .refl s
  refine ⟨⟨_, rfl, (frame.setFlags _).took _, rfl, rfl, _, rfl⟩, runs_setFlags rfl |>.mono fun t flags => ?_,
    runs_setFlags rfl |>.mono fun t flags => ?_, ⟨s, rfl, frame, rfl, rfl, rfl⟩,
    runs_setFlags rfl |>.mono fun t flags => ?_,
    (runs_writeB rfl).mono fun t ⟨value, other, flags⟩ => ⟨flags, value, other⟩⟩
  · rw [flags]
    exact toByte_clear f m
  · rw [flags]
    exact toByte_set f m
  · rw [flags]
    exact Flags.toByte_ofByte _

/-! ### Interrupt enables and program status -/

theorem setEnables_false (vn : BitVec 2) (s : State) : setEnables vn false s =
    s.setFcw { s.fcw with vie := s.fcw.vie && vn.getLsbD 1, nvie := s.fcw.nvie && vn.getLsbD 0 } := by
  unfold setEnables
  cases vn.getLsbD 1 <;> cases vn.getLsbD 0 <;> simp

theorem setEnables_true (vn : BitVec 2) (s : State) : setEnables vn true s =
    s.setFcw { s.fcw with vie := s.fcw.vie || !vn.getLsbD 1, nvie := s.fcw.nvie || !vn.getLsbD 0 } := by
  unfold setEnables
  cases vn.getLsbD 1 <;> cases vn.getLsbD 0 <;> simp

/-- LDPS from an even address, in either format. -/
theorem loadProgramStatus_even {s : State} {a : Address} (even : a.even = true) : loadProgramStatus a s = .ok (
    if s.segmented then (s.loadFcw (s.peekWord (a.add 2#16))).setPc (segOfWord (s.peekWord (a.add 4#16)))
      (s.peekWord (a.add 6#16))
    else (s.loadFcw (s.peekWord a)).setPcOff (s.peekWord (a.add 2#16))) := by
  have at_offset {k : Word} (hk : k.getLsbD 0 = false) := readWord_even (s := s) ((even_add a hk).trans even)
  unfold loadProgramStatus
  rw [at_offset (by decide), at_offset (by decide), at_offset (by decide), readWord_even even]
  split <;> rfl

/-- Settles O57. -/
theorem controlInstructions : Obligations.ControlInstructions := by
  intro s vn m sn
  have system := fun i body => finish_privileged (s := s) sn i body
  have ldps (even : (s.ea m).even = true) : exec (.ldps m) s = finish _ :=
    (system (.ldps m) _).trans (congrArg finish (loadProgramStatus_even even))
  refine ⟨?_, ?_, system .., system .., system .., fun even seg => ?_, fun even seg => ?_⟩
  · rw [← setEnables_false]
    exact system ..
  · rw [← setEnables_true]
    exact system ..
  · rw [ldps even, if_neg (by rw [seg]; nofun)]
    rfl
  · rw [ldps even, if_pos seg]
    rfl

/-! ### Control registers -/

section
variable {s : State} {r : RegField} {c : CtlReg}

theorem exec_ldctlRead (sn : s.fcw.sn = true) (has : s.hasControl c = true) :
    exec (.ldctlRead r c) s = .next ((s.writeW r (s.readControl c)).took 2) := by
  refine (finish_privileged sn ..).trans ?_
  rw [has]
  rfl

theorem exec_ldctlWrite (sn : s.fcw.sn = true) (has : s.hasControl c = true) :
    exec (.ldctlWrite c r) s = .next (s.writeControl c (s.readW r)) := by
  refine (finish_privileged sn ..).trans ?_
  rw [has]
  rfl

theorem exec_ldctl_absent (sn : s.fcw.sn = true) (absent : s.hasControl c = false) :
    exec (.ldctlRead r c) s = .refused .controlRegisterAbsent ∧
      exec (.ldctlWrite c r) s = .refused .controlRegisterAbsent := by
  refine ⟨(finish_privileged sn ..).trans ?_, (finish_privileged sn ..).trans ?_⟩ <;>
  · rw [absent]
    rfl

end

/-- The bits of the mask do not lie in the fields `a` and `b`. -/
theorem maskedWord (w : Word) (a : BitVec 3) (b : BitVec 2) :
    (w.extractLsb' 11 5 ++ a ++ w.extractLsb' 2 6 ++ b : Word) &&& 0xF8FC#16 = w &&& 0xF8FC#16 := by
  refine BitVec.eq_of_getLsbD_eq fun i hi => ?_
  rw [BitVec.getLsbD_and, BitVec.getLsbD_and]
  by_cases masked : (0xF8FC#16).getLsbD i = true
  · have place : 2 ≤ i ∧ i < 8 ∨ 11 ≤ i := by
      revert i
      decide
    rw [masked, Bool.and_true, Bool.and_true]
    erw [BitVec.getLsbD_append, BitVec.getLsbD_append, BitVec.getLsbD_append]
    rcases place with ⟨low, high⟩ | high
    · rw [if_neg (by omega), if_pos (by omega), BitVec.getLsbD_extractLsb', decide_eq_true (by omega), Bool.true_and]
      congr 1
      omega
    · rw [if_neg (by omega), if_neg (by omega), if_neg (by omega), BitVec.getLsbD_extractLsb',
        decide_eq_true (by omega), Bool.true_and]
      congr 1
      omega
  · rw [Bool.eq_false_iff.mpr masked, Bool.and_false, Bool.and_false]

/-- An image has no bits outside the mask. -/
theorem toWord_masked (v : Variant) (x : Fcw) : x.toWord v &&& 0xF8FC#16 = x.toWord v := by
  have control : ∀ a b c d e : Bool, controlImage a b c d e &&& 0xF8#8 = controlImage a b c d e := by decide
  have flags : ∀ f : Flags, f.toByte &&& 0xFC#8 = f.toByte := by
    rintro ⟨c, z, s, pv, d, h⟩
    revert c z s pv d h
    decide
  rw [Fcw.toWord_eq]
  exact BitVec.and_append.trans (congrArg₂ _ (control ..) (flags _))

/-- What each control register reads as, where its bits are defined. -/
theorem readControl_bits (s : State) :
    s.readControl .fcw &&& 0xF8FC#16 = s.fcw.toWord s.cfg.variant ∧
      (s.readControl .refresh).extractLsb' 1 8 = s.refresh.extractLsb' 0 8 ∧
      (s.readControl .psapseg).extractLsb' 8 7 = s.psapSeg ∧
      (s.readControl .psapoff).extractLsb' 8 8 = s.psapOff :=
  ⟨(maskedWord ..).trans (toWord_masked ..),
    (BitVec.extractLsb'_append_eq_of_le (by decide)).trans BitVec.extractLsb'_append_eq_right,
    (BitVec.extractLsb'_append_eq_of_le (by decide)).trans BitVec.extractLsb'_append_eq_right,
    BitVec.extractLsb'_append_eq_left⟩

/-- Settles O58. -/
theorem loadControl : Obligations.LoadControl := by
  intro s r sn z1 w
  refine ⟨fun c onZ8001 inSegmented => ?_, exec_ldctlWrite sn rfl, exec_ldctlWrite sn rfl,
    fun z => exec_ldctlWrite sn (beq_iff_eq.mpr z), exec_ldctlWrite sn rfl, fun seg => ?_, ?_,
    fun z => exec_ldctl_absent sn (beq_eq_false_iff_ne.mpr z), fun seg => exec_ldctl_absent sn seg⟩
  · have has : s.hasControl c = true := by
      cases c with
      | psapseg => exact beq_iff_eq.mpr (onZ8001 rfl)
      | nspseg => exact inSegmented rfl
      | _ => rfl
    obtain ⟨fcw, refresh, psapseg, psapoff⟩ := readControl_bits s
    have value : ((s.writeW r (s.readControl c)).took 2).readW r = s.readControl c := readW_writeW_self ..
    refine ⟨_, exec_ldctlRead sn has, ((Frame.refl s).writeW (List.mem_singleton_self _) _).took _, rfl, rfl, rfl, ?_⟩
    rw [value]
    refine ⟨?_, ?_, ?_, ?_, ?_, ?_⟩ <;> rintro rfl
    · exact fcw
    · exact refresh
    · exact psapseg
    · exact psapoff
    · rfl
    · rfl
  · exact ⟨_, exec_ldctlWrite sn seg, (Frame.refl s).writeSlot (List.mem_singleton_self _) _, rfl, rfl,
      (writeSlot_get ..).trans (if_pos rfl), rfl⟩
  · exact ⟨_, exec_ldctlWrite sn rfl, (Frame.refl s).writeSlot (List.mem_singleton_self _) _, rfl, rfl,
      (writeSlot_get ..).trans (if_pos rfl), rfl⟩

/-! ### The multi-micro pins -/

theorem sampleMi_cons {s : State} {m : Bool} {rest : List Bool} (h : s.miIn = m :: rest) :
    s.sampleMi = (m, (s.setMiIn rest).took 1) := by
  rw [State.sampleMi, h]
  rfl

theorem multiRequest_low {s : State} {rest : List Bool} (h : s.miIn = false :: rest) (d : RegField) :
    multiRequest d s =
      (((s.setMiIn rest).took 1).setMoHigh true).setFlags { s.flags with z := false, s := false } := by
  rw [multiRequest, sampleMi_cons h]
  rfl

theorem multiRequest_high {s : State} {m : Bool} {rest : List Bool} (h : s.miIn = true :: m :: rest) (d : RegField) :
    multiRequest d s =
      ((((s.setMiIn rest).took 2).setMoHigh m).writeW d 0#16).setFlags { s.flags with z := true, s := !m } := by
  rw [multiRequest, sampleMi_cons h]
  rfl

/-- Settles O59. -/
theorem multiMicro : Obligations.MultiMicro := by
  intro s d sn stays
  have mreq : exec (.mreq d) s = .next (multiRequest d s) := finish_privileged sn ..
  refine ⟨fun m rest mi => ?_, fun rest mi => ?_, fun m rest mi => ?_⟩
  · have next : exec .mbit s = .next _ := finish_privileged sn ..
    rw [sampleMi_cons mi] at next
    exact ⟨_, _, next, ((Frame.refl _).took 1 |>.setFlags _).took 1, ⟨rfl, rfl⟩, rfl⟩
  · rw [multiRequest_low mi] at mreq
    have base : Frame ((s.setMiIn rest).setMoHigh true) (((s.setMiIn rest).took 1).setMoHigh true) [] [] :=
      (Frame.refl _).took 1
    exact ⟨_, mreq, base.setFlags _, ⟨rfl, rfl⟩, rfl⟩
  · rw [multiRequest_high mi] at mreq
    have base : Frame ((s.setMiIn rest).setMoHigh m) (((s.setMiIn rest).took 2).setMoHigh m) [s.slot d] [] :=
      (Frame.refl _).took 2
    exact ⟨_, mreq, (base.writeW (List.mem_singleton_self _) _).setFlags _, ⟨rfl, rfl⟩, readW_writeW_self .., rfl⟩

end Sys2Proof.Machine
end

section
/-! Extended instructions with EPA = 1 (49_extended R552 to R558). -/

namespace Sys2Proof.Machine

/-! ### Words from the EPU -/

/-- The environment after `j` words are taken from the EPU. -/
def State.afterEpu (s : State) (j : Nat) : State := if s.cfg.epuPresent then s.setEpuIn (s.epuIn.drop j) else s

/-- The environment gives `w` as the EPU's word `j` from here on. -/
def State.EpuGives (s : State) (j : Nat) (w : Word) : Prop := s.cfg.epuPresent = true ∧ s.epuIn[j]? = some w

section
variable {s t : State} {slots : List (Fin 18)} {keys : List Nat}

theorem Frame.setEpuIn (h : Frame s t slots keys) (xs : List Word) :
    Frame (s.setEpuIn xs) (t.setEpuIn xs) slots keys :=
  ⟨h.regs, h.mem, h.control, congrArg (State.setEpuIn · xs) h.others⟩

theorem epuRead_present (present : s.cfg.epuPresent = true) :
    s.epuRead = (answer s.epuIn (s.fresh 0 16), (s.setEpuIn s.epuIn.tail).took 1) := by
  rw [State.epuRead, if_pos present, if_pos present]

theorem epuRead_absent (absent : s.cfg.epuPresent = false) : s.epuRead = (s.fresh 0 16, s.took 1) := by
  rw [State.epuRead, if_neg (by rw [absent]; nofun), if_neg (by rw [absent]; nofun)]

/-- A word from the EPU leaves registers, memory, flags and PC. -/
theorem epuRead_same (s : State) : SameCpu s s.epuRead.2 ∧ s.epuRead.2.mem = s.mem := by
  cases present : s.cfg.epuPresent with
  | true => rw [epuRead_present present]; exact ⟨⟨rfl, rfl, rfl, rfl, rfl⟩, rfl⟩
  | false => rw [epuRead_absent present]; exact ⟨⟨rfl, rfl, rfl, rfl, rfl⟩, rfl⟩

theorem epuRead_gives {w : Word} (h : s.EpuGives 0 w) : s.epuRead.1 = w := by
  obtain ⟨present, first⟩ := h
  rw [epuRead_present present]
  cases given : s.epuIn with
  | nil => rw [given] at first; cases first
  | cons x xs =>
    rw [given] at first
    exact Option.some.inj first

theorem Frame.epuIn (h : Frame s t slots keys) : t.epuIn = s.epuIn := (congrArg State.epuIn h.others :)

/-- After the first word the next ones move up. -/
theorem epuGives_succ (h : Frame s.epuRead.2 t slots keys) {j : Nat} {w : Word} (given : s.EpuGives (j + 1) w) :
    t.EpuGives j w := by
  obtain ⟨present, next⟩ := given
  have epuIn := h.epuIn
  rw [epuRead_present present] at epuIn
  refine ⟨by rw [h.cfg, (epuRead_same s).1.cfg, present], ?_⟩
  rw [epuIn]
  exact List.getElem?_tail.trans next

/-- What follows the first word is framed from the environment after all of them. -/
theorem afterEpu_succ (h : Frame s.epuRead.2 t slots keys) (n : Nat) :
    Frame (s.afterEpu (n + 1)) (t.afterEpu n) slots keys := by
  unfold State.afterEpu
  rw [h.cfg, (epuRead_same s).1.cfg, h.epuIn]
  cases present : s.cfg.epuPresent with
  | true =>
    rw [epuRead_present present] at h ⊢
    have base : Frame (s.setEpuIn (s.epuIn.drop (n + 1)))
        (((s.setEpuIn s.epuIn.tail).took 1).setEpuIn (s.epuIn.drop (n + 1))) slots keys :=
      ⟨fun _ _ => rfl, fun _ _ => rfl, rfl, rfl⟩
    have drop : s.epuIn.tail.drop n = s.epuIn.drop (n + 1) := List.drop_tail
    rw [if_pos rfl, if_pos rfl]
    exact base.trans (drop ▸ h.setEpuIn (s.epuIn.tail.drop n))
  | false =>
    rw [epuRead_absent present] at h
    rw [if_neg nofun, if_neg nofun]
    exact ((Frame.refl s).took 1).trans h

theorem afterEpu_one (s : State) : Frame (s.afterEpu 1) s.epuRead.2 slots keys := by
  unfold State.afterEpu
  cases present : s.cfg.epuPresent with
  | true =>
    rw [epuRead_present present, List.drop_one]
    exact (Frame.refl _).took 1
  | false =>
    rw [epuRead_absent present]
    exact (Frame.refl _).took 1

theorem afterEpu_zero (s : State) : Frame (s.afterEpu 0) s slots keys := by
  unfold State.afterEpu
  split <;> exact Frame.refl _

end

theorem afterEpu_peekWord (s : State) (n : Nat) (a : Address) : (s.afterEpu n).peekWord a = s.peekWord a := by
  unfold State.afterEpu
  split <;> rfl

theorem afterEpu_slot (s : State) (n : Nat) : (s.afterEpu n).slot = s.slot := by
  unfold State.afterEpu
  split <;> rfl

theorem afterEpu_readW (s : State) (n : Nat) (f : RegField) : (s.afterEpu n).readW f = s.readW f := by
  unfold State.afterEpu
  split <;> rfl

/-! ### The transfers -/

/-- Words from the EPU to memory. -/
theorem epuToMemory_even (n : Nat) (hn : n ≤ 16) (a : Address) (even : a.even = true) (s : State) :
    ∃ t, epuToMemory n a s = .ok t ∧ Frame (s.afterEpu n) t [] (a.bytes (2 * n)) ∧
      (t.pcSeg = s.pcSeg ∧ t.pcOff = s.pcOff ∧ t.flags = s.flags) ∧
      ∀ j < n, ∀ w, s.EpuGives j w → t.peekWord (a.add (BitVec.ofNat 16 (2 * j))) = w := by
  induction n generalizing a s with
  | zero => exact ⟨s, rfl, afterEpu_zero s, ⟨rfl, rfl, rfl⟩, nofun⟩
  | succ n ih =>
    obtain ⟨t, stored, frame, ⟨pcSeg, pcOff, flags⟩, words⟩ := ih (by omega) (a.add 2#16)
      ((even_add a (by decide)).trans even) (s.epuRead.2.pokeWord a s.epuRead.1)
    have poked : Frame s.epuRead.2 (s.epuRead.2.pokeWord a s.epuRead.1) [] (a.bytes (2 + 2 * n)) :=
      (Frame.refl _).pokeWord (fun j hj => keyAt_mem_bytes a (by omega)) _
    have cpu := (epuRead_same s).1.pokeWord a s.epuRead.1
    refine ⟨t, ?_, ?_, ⟨pcSeg.trans cpu.pcSeg, pcOff.trans cpu.pcOff, flags.trans (congrArg Fcw.flags cpu.fcw)⟩,
      fun j hj w given => ?_⟩
    · unfold epuToMemory
      rw [writeWord_even even]
      exact stored
    · rw [Nat.mul_add, Nat.add_comm (2 * n)]
      exact (afterEpu_succ poked n).trans (frame.mono (fun _ hi => hi) (bytes_add_subset a 2 (2 * n)))
    · cases j with
      | zero =>
        have apart {i : Nat} (hi : i < 2) := keyAt_not_mem_bytes_add a (i := 2) (n := 2 * n) hi (by omega)
        have first := frame.peekWord (apart (i := 0) (by decide)) (apart (i := 1) (by decide))
        rw [afterEpu_peekWord, peekWord_pokeWord_self, epuRead_gives given] at first
        exact (congrArg t.peekWord (Address.add_zero a)).trans first
      | succ j =>
        rw [← words j (by omega) w (epuGives_succ poked given), Nat.add_comm j 1, Nat.mul_add, BitVec.ofNat_add,
          ← Address.add_add]

/-- Words from the EPU to registers. -/
theorem epuToRegs_words (n : Nat) (hn : n ≤ 16) (f : RegField) (s : State) :
    Frame (s.afterEpu n) (epuToRegs n f s) (s.slotRun f n) [] ∧
      ((epuToRegs n f s).pcSeg = s.pcSeg ∧ (epuToRegs n f s).pcOff = s.pcOff ∧ (epuToRegs n f s).flags = s.flags) ∧
      ∀ j < n, ∀ w, s.EpuGives j w → (epuToRegs n f s).readW (f + BitVec.ofNat 4 j) = w := by
  induction n generalizing f s with
  | zero => exact ⟨afterEpu_zero s, ⟨rfl, rfl, rfl⟩, nofun⟩
  | succ n ih =>
    obtain ⟨cpu, -⟩ := epuRead_same s
    have slots : s.epuRead.2.slot = s.slot := by
      funext g
      rw [State.slot, cpu.cfg, cpu.fcw]
      rfl
    have run (g : RegField) (k : Nat) : (s.epuRead.2.writeW f s.epuRead.1).slotRun g k = s.slotRun g k :=
      congrArg (fun (slot : RegField → Fin 18) => (List.range k).map fun j => slot (g + BitVec.ofNat 4 j)) slots
    have here : s.epuRead.2.slot f ∈ s.slotRun f (1 + n) := by
      rw [slots]
      simpa using slotRun_mem s f (j := 0) (k := 1 + n) (by omega)
    have written : Frame s.epuRead.2 (s.epuRead.2.writeW f s.epuRead.1) (s.slotRun f (1 + n)) [] :=
      (Frame.refl _).writeW here _
    obtain ⟨frame, ⟨pcSeg, pcOff, flags⟩, words⟩ := ih (by omega) (f + 1#4) (s.epuRead.2.writeW f s.epuRead.1)
    rw [run] at frame
    refine ⟨?_, ⟨pcSeg.trans cpu.pcSeg, pcOff.trans cpu.pcOff, flags.trans (congrArg Fcw.flags cpu.fcw)⟩,
      fun j hj w given => ?_⟩
    · have whole := (afterEpu_succ written n).trans (frame.mono (slotRun_succ_subset s f n) (fun _ hk => hk))
      rwa [Nat.add_comm 1 n] at whole
    · cases j with
      | zero =>
        have kept := frame.readW (f := f) (by
          rw [afterEpu_slot, show (s.epuRead.2.writeW f s.epuRead.1).slot f = s.slot f from congrFun slots f]
          exact slot_not_mem_run s f (by omega))
        rw [afterEpu_readW, readW_writeW_self] at kept
        rw [show f + BitVec.ofNat 4 0 = f from BitVec.add_zero f, ← epuRead_gives given]
        exact kept
      | succ j =>
        rw [Nat.add_comm j 1, ← field_add]
        exact words j (by omega) w (epuGives_succ written given)

theorem range_succ_append {α : Type} (log : List α) (g : Nat → α) (n : Nat) :
    log ++ (List.range (n + 1)).map g = log ++ [g 0] ++ (List.range n).map fun j => g (1 + j) := by
  rw [List.range_succ_eq_map, List.map_cons, List.map_map, List.append_assoc]
  simp [Function.comp_def, Nat.add_comm]

/-- Words from memory to the EPU. -/
theorem memoryToEpu_even (n : Nat) (a : Address) (even : a.even = true) (s : State) : memoryToEpu n a s =
    .ok (s.setEpuLog (s.epuLog ++ (List.range n).map fun j => .word (s.peekWord (a.add (BitVec.ofNat 16 (2 * j)))))) := by
  induction n generalizing a s with
  | zero =>
    rw [List.range_zero, List.map_nil, List.append_nil]
    rfl
  | succ n ih =>
    unfold memoryToEpu
    rw [readWord_even even]
    refine (ih _ ((even_add a (by decide)).trans even) _).trans ?_
    rw [range_succ_append, show a.add (BitVec.ofNat 16 (2 * 0)) = a from Address.add_zero a]
    simp only [Nat.mul_add, BitVec.ofNat_add, ← Address.add_add]
    rfl

/-- Words from registers to the EPU. -/
theorem regsToEpu_eq (n : Nat) (f : RegField) (s : State) : regsToEpu n f s =
    s.setEpuLog (s.epuLog ++ (List.range n).map fun j => .word (s.readW (f + BitVec.ofNat 4 j))) := by
  induction n generalizing f s with
  | zero =>
    rw [List.range_zero, List.map_nil, List.append_nil]
    rfl
  | succ n ih =>
    refine (ih _ _).trans ?_
    rw [range_succ_append, show f + BitVec.ofNat 4 0 = f from BitVec.add_zero f]
    simp only [← field_add]
    rfl

/-! ### The obligation -/

theorem finish_extended {s : State} (epa : s.fcw.epa = true) (i : Instr) (body : Exec State) :
    finish (s.extended i body) = finish body := by rw [extended_enabled epa]

theorem epaPair_ir (s : State) (p : RegField) :
    epaPair (.ir p) s = require (!s.segmented || pairField p) .epaOddPair := rfl

theorem epaPair_ok {s : State} {m : Mem} (h : ∀ p, m = .ir p → s.segmented = true → pairField p = true) :
    epaPair m s = .ok () := by
  cases m with
  | ir p =>
    rw [epaPair_ir]
    cases seg : s.segmented with
    | true =>
      rw [h p rfl seg]
      rfl
    | false => rfl
  | _ => rfl

theorem epaPair_odd {s : State} {p : RegField} (seg : s.segmented = true) (odd : pairField p = false) :
    epaPair (.ir p) s = .error (.refused .epaOddPair) := by
  rw [epaPair_ir, seg, odd]
  rfl

/-- Settles O60: by induction on the number of words. -/
theorem extendedTransfers : Obligations.ExtendedTransfers := by
  intro s n r u2 u3 u4 v x w1 tail epa k given used told stays
  have body := fun i b => finish_extended (s := s) epa i b
  have count : k ≤ 16 := n.isLt
  refine ⟨fun m u even pair => ⟨?_, ?_⟩, ?_, ?_, ?_, body .., body .., body .., fun p u seg odd => ⟨?_, ?_⟩⟩
  · obtain ⟨t, stored, frame, same, words⟩ := epuToMemory_even k count (s.ea m) even s
    refine ⟨t, (body ..).trans ?_, frame, same, words⟩
    rw [epaPair_ok pair]
    exact congrArg finish stored
  · refine (body ..).trans ?_
    rw [epaPair_ok pair]
    exact congrArg finish (memoryToEpu_even k (s.ea m) even s)
  · obtain ⟨frame, same, words⟩ := epuToRegs_words k count r s
    exact ⟨_, body .., frame, same, words⟩
  · exact (body ..).trans (congrArg (fun t => finish (.ok t)) (regsToEpu_eq k r s))
  · obtain ⟨cpu, -⟩ := epuRead_same s
    have slot : s.epuRead.2.slot 0#4 = s.slot 0#4 := by
      rw [State.slot, cpu.cfg, cpu.fcw]
      rfl
    have base : Frame s.epuRead.2 _ [s.slot 0#4] [] :=
      (((Frame.refl s.epuRead.2).setFlags (Flags.ofByte (s.epuRead.1.extractLsb' 0 8))).writeW
        (by rw [slot]; exact List.mem_singleton_self _) (s.epuRead.2.fresh 0 16)).took 1
    refine ⟨_, body .., (afterEpu_one s).trans base, cpu.pcSeg, cpu.pcOff, fun w gives => ?_⟩
    have byte := Flags.toByte_ofByte (s.epuRead.1.extractLsb' 0 8)
    rw [epuRead_gives gives] at byte
    refine Eq.trans ?_ byte
    rw [epuRead_gives gives]
    rfl
  · refine (body ..).trans ?_
    rw [epaPair_odd seg odd]
    rfl
  · refine (body ..).trans ?_
    rw [epaPair_odd seg odd]
    rfl

end Sys2Proof.Machine
end

section
/-! Where the machine stops (20_memory R73, 46_block_string R410, R412, 47_io R482, 60_exceptions R615). -/

namespace Sys2Proof.Machine

/-! ### Accesses at an odd address -/

section
variable {i : Instr} {s : State} {a : Address} {sp : RegField}

/-- An instruction whose first access stops. -/
theorem faults_first {α : Type} {x : Exec α} {k : α → Exec State} (stops : x = .error (.fault .oddWordAccess))
    (meaning : exec i s = finish (x >>= k)) : exec i s = .fault .oddWordAccess := by
  rw [meaning, stops]
  rfl

/-- An instruction that is one access and stops there. -/
theorem faults_only {x : Exec State} (stops : x = .error (.fault .oddWordAccess)) (meaning : exec i s = finish x) :
    exec i s = .fault .oddWordAccess := by
  rw [meaning, stops]
  rfl

theorem readWord_odd (h : a.even = false) : s.readWord a = .error (.fault .oddWordAccess) := if_neg (by rw [h]; nofun)
theorem readLong_odd (h : a.even = false) : s.readLong a = .error (.fault .oddWordAccess) := if_neg (by rw [h]; nofun)
theorem writeWord_odd {v : Word} (h : a.even = false) : s.writeWord a v = .error (.fault .oddWordAccess) :=
  if_neg (by rw [h]; nofun)
theorem writeLong_odd {v : Long} (h : a.even = false) : s.writeLong a v = .error (.fault .oddWordAccess) :=
  if_neg (by rw [h]; nofun)

theorem pushWord_odd {v : Word} (h : (s.pointer sp).even = false) :
    s.pushWord sp v = .error (.fault .oddWordAccess) := by
  rw [State.pushWord, pointer_stepPointer, writeWord_odd ((even_add _ (by decide)).trans h)]

theorem pushLong_odd {v : Long} (h : (s.pointer sp).even = false) :
    s.pushLong sp v = .error (.fault .oddWordAccess) := by
  rw [State.pushLong, pointer_stepPointer, writeLong_odd ((even_add _ (by decide)).trans h)]

theorem popWord_odd (h : (s.pointer sp).even = false) : s.popWord sp = .error (.fault .oddWordAccess) := by
  rw [State.popWord, readWord_odd h]
  rfl

theorem popLong_odd (h : (s.pointer sp).even = false) : s.popLong sp = .error (.fault .oddWordAccess) := by
  rw [State.popLong, readLong_odd h]
  rfl

theorem pushPc_odd (h : (s.pointer s.stackField).even = false) : s.pushPc = .error (.fault .oddWordAccess) := by
  rw [State.pushPc, pushLong_odd h, pushWord_odd h, ite_self]

theorem popPc_odd (h : (s.pointer s.stackField).even = false) : s.popPc = .error (.fault .oddWordAccess) := by
  rw [State.popPc, popLong_odd h, popWord_odd h]
  exact ite_self _

/-! ### Instructions on a stack -/

variable {d f : RegField} {m : Mem}

/-- POP and POPL read at the pointer first. -/
theorem pop_odd_pointer {x : RM} (h : (s.pointer f).even = false) :
    exec (.pop x f) s = .fault .oddWordAccess ∧ exec (.popl x f) s = .fault .oddWordAccess :=
  ⟨faults_first (readWord_odd h) rfl, faults_first (readLong_odd h) rfl⟩

/-- A memory destination apart from the pointer. -/
theorem pop_odd_destination (h : (s.ea m).even = false) (apart : sameField m f = false) :
    exec (.pop (.mem m) f) s = .fault .oddWordAccess ∧ exec (.popl (.mem m) f) s = .fault .oddWordAccess := by
  cases pointer : (s.pointer f).even with
  | false => exact pop_odd_pointer pointer
  | true =>
    have pop : exec (.pop (.mem m) f) s = finish (if sameField m f then .ok (popOverlap f id s)
        else (s.stepPointer f 2#16).writeWord (s.ea m) (s.peekWord (s.pointer f))) := by
      show finish (s.readWord (s.pointer f) >>= _) = _
      rw [readWord_even pointer]
      rfl
    have popl : exec (.popl (.mem m) f) s = finish (if sameField m f then .ok (popOverlap f id s)
        else (s.stepPointer f 4#16).writeLong (s.ea m) (s.peekLong (s.pointer f))) := by
      show finish (s.readLong (s.pointer f) >>= _) = _
      rw [readLong_even pointer]
      rfl
    rw [pop, popl, apart, writeWord_odd h, writeLong_odd h]
    exact ⟨rfl, rfl⟩

/-- PUSH stops at an odd pointer, whatever its source. -/
theorem push_odd_pointer (h : (s.pointer f).even = false) (src : Src 16) :
    exec (.push f src) s = .fault .oddWordAccess := by
  have stops (k : Nat) (v : Word) : (s.took k).pushWord f v = .error (.fault .oddWordAccess) := pushWord_odd h
  cases src with
  | r d =>
    have meaning : exec (.push f (.r d)) s = finish (if overlap [d] (s.pointerFields f) then
        (s.took 1).pushWord f (s.fresh 0 16) else (s.took 0).pushWord f (s.readW d)) := rfl
    rw [meaning, stops, stops, ite_self]
    rfl
  | im v => exact faults_only (pushWord_odd h) rfl
  | mem m =>
    cases even : (s.ea m).even with
    | false => exact faults_first (readWord_odd even) rfl
    | true =>
      have meaning : exec (.push f (.mem m)) s = finish (s.pushWord f (s.peekWord (s.ea m))) := by
        show finish (s.readWord (s.ea m) >>= fun v => s.pushWord f v) = _
        rw [readWord_even even]
        rfl
      exact faults_only (pushWord_odd h) meaning

theorem pushl_odd_pointer (h : (s.pointer f).even = false) (src : RM) :
    exec (.pushl f src) s = .fault .oddWordAccess := by
  have stops (k : Nat) (v : Long) : (s.took k).pushLong f v = .error (.fault .oddWordAccess) := pushLong_odd h
  cases src with
  | r d =>
    have meaning : exec (.pushl f (.r d)) s = finish (if overlap [d] (s.pointerFields f) then
        (s.took 1).pushLong f (s.fresh 0 32) else (s.took 0).pushLong f (s.readL d)) := rfl
    rw [meaning, stops, stops, ite_self]
    rfl
  | mem m =>
    cases even : (s.ea m).even with
    | false => exact faults_first (readLong_odd even) rfl
    | true =>
      have meaning : exec (.pushl f (.mem m)) s = finish (if sameField m f then
          (s.took 1).pushLong f (s.fresh 0 32) else (s.took 0).pushLong f (s.peekLong (s.ea m))) := by
        show finish (s.readLong (s.ea m) >>= fun v => if sameField m f then (s.took 1).pushLong f (s.fresh 0 32)
          else s.pushLong f v) = _
        rw [readLong_even even]
        rfl
      rw [meaning, stops, stops, ite_self]
      rfl

/-! ### Program status, EPU and fetch -/

theorem ldps_odd (sn : s.fcw.sn = true) (h : (s.ea m).even = false) : exec (.ldps m) s = .fault .oddWordAccess := by
  have stops : loadProgramStatus (s.ea m) s = .error (.fault .oddWordAccess) := by
    unfold loadProgramStatus
    rw [readWord_odd h, readWord_odd ((even_add _ (by decide)).trans h)]
    exact ite_self _
  exact faults_only stops (finish_privileged sn ..)

theorem epa_odd {u2 : BitVec 2} {u : BitVec 12} {n : BitVec 4} (epa : s.fcw.epa = true)
    (pair : ∀ p, m = .ir p → s.segmented = true → pairField p = true) (h : (s.ea m).even = false) :
    exec (.epaStm m u2 u n) s = .fault .oddWordAccess ∧ exec (.epaLdm m u2 u n) s = .fault .oddWordAccess := by
  have storeStops : epuToMemory (n.toNat + 1) (s.ea m) s = .error (.fault .oddWordAccess) := by
    unfold epuToMemory
    rw [writeWord_odd h]
    rfl
  have loadStops : memoryToEpu (n.toNat + 1) (s.ea m) s = .error (.fault .oddWordAccess) := by
    unfold memoryToEpu
    rw [readWord_odd h]
    rfl
  refine ⟨(finish_extended epa ..).trans ?_, (finish_extended epa ..).trans ?_⟩
  · rw [epaPair_ok pair]
    exact congrArg finish storeStops
  · rw [epaPair_ok pair]
    exact congrArg finish loadStops

theorem iret_odd (sn : s.fcw.sn = true) (seg : s.cfg.variant = .z8002 ∨ s.fcw.seg = true)
    (h : s.systemStack.even = false) : exec .iret s = .fault .oddWordAccess := by
  have stack := (stack_of_system sn seg).1
  have stops : s.trapReturn = .error (.fault .oddWordAccess) := by
    rw [← stack] at h
    have field : s.stackField = if s.segmented then 14#4 else 15#4 := rfl
    unfold State.trapReturn
    cases v : s.cfg.variant with
    | z8002 =>
      rw [State.segmented, v] at field
      rw [show s.stackField = 15#4 from field] at h
      rw [popWord_odd h]
      rfl
    | z8001 =>
      have seg' : s.fcw.seg = true := seg.resolve_left (by rw [v]; nofun)
      rw [State.segmented, v, seg'] at field
      rw [show s.stackField = 14#4 from field] at h
      rw [popWord_odd h, seg']
      rfl
  exact faults_only stops (finish_privileged sn ..)

theorem step_odd_fetch (run : s.latch.boundaryEvent = .run) (odd : s.latch.pcOff.getLsbD 0 = true) :
    step s = .fault .oddFetch := by
  have notEven : ¬ s.latch.pcAddr.even = true := by
    rw [show s.latch.pcAddr.even = (s.latch.pcOff.getLsbD 0 == false) from rfl, odd]
    nofun
  have fetched : s.latch.fetch = .error (.fault .oddFetch) := if_neg notEven
  rw [step_run run, runInstr, fetched]
  rfl

end

/-- Settles O51. -/
theorem oddAddressFaults : Obligations.OddAddressFaults := by
  intro s d f b m v n disp u2 u odd
  simp only [odd, List.forall_mem_cons, List.not_mem_nil, false_implies, implies_true, and_true]
  refine ⟨fun h => ?_, fun h => ?_, fun h => ⟨?_, fun apart => pop_odd_destination h apart, fun sn => ldps_odd sn h,
    fun epa pair => ?_⟩, fun h => ?_, fun h => ⟨fun c => ?_, fun holds => ?_⟩, fun h => ⟨trapEntry_odd h, fun c => ?_,
    fun sn seg => iret_odd sn seg h⟩, step_odd_fetch⟩
  · exact ⟨faults_first (readWord_odd h) rfl, faults_only (writeWord_odd h) rfl, faults_first (readLong_odd h) rfl,
      faults_only (writeLong_odd h) rfl⟩
  · exact ⟨faults_first (readWord_odd h) rfl, faults_only (writeWord_odd h) rfl, faults_first (readLong_odd h) rfl,
      faults_only (writeLong_odd h) rfl⟩
  · have word := readWord_odd (s := s) h
    have long := readLong_odd (s := s) h
    exact ⟨faults_only (writeWord_odd h) rfl, faults_first word rfl, faults_only (writeWord_odd h) rfl,
      faults_first word rfl, faults_first (writeWord_odd h) rfl, faults_first word rfl, faults_first long rfl,
      faults_first word rfl, faults_first long rfl, faults_first word rfl, faults_first long rfl, faults_first word rfl,
      faults_first long rfl, faults_first word rfl, faults_first word rfl, faults_first word rfl, faults_first word rfl,
      faults_first word rfl, faults_first long rfl, faults_first word rfl, faults_first long rfl, faults_first word rfl,
      faults_first word rfl, faults_first word rfl, faults_first word rfl, faults_first word rfl, faults_first long rfl,
      faults_first word rfl, faults_first word rfl, faults_first word rfl, faults_first word rfl⟩
  · exact epa_odd epa pair h
  · exact ⟨push_odd_pointer h _, push_odd_pointer h _, push_odd_pointer h _, pushl_odd_pointer h _, pushl_odd_pointer h _,
      (pop_odd_pointer h).1, (pop_odd_pointer h).1, (pop_odd_pointer h).2, (pop_odd_pointer h).2⟩
  · exact ⟨faults_first (pushPc_odd h) rfl, faults_first (pushPc_odd h) rfl⟩
  · exact faults_only (popPc_odd h) (congrArg finish (if_pos holds))
  · exact faults_only (trapEntry_odd h ..) rfl

end Sys2Proof.Machine
end

section
/-! Where the block, string and block I/O instructions stop (46_block_string R410, R412, 47_io R482). -/

namespace Sys2Proof.Machine

section
variable {i : Instr} {s : State} {e : Stop} {x : Exec (State × Bool)}

/-- A single form whose iteration stops. -/
theorem stops_once (stops : x = .error e) (meaning : exec i s = finish (once x)) : exec i s = finish (.error e) := by
  rw [meaning, stops]
  rfl

/-- A repeat form whose iteration stops. -/
theorem stops_repeated (stops : x = .error e) (meaning : exec i s = finish (repeated x)) :
    exec i s = finish (.error e) := by
  rw [meaning, stops]
  rfl

variable {n : Nat} {get : State → Address → Exec (BitVec n)} {store : State → Address → BitVec n → Exec State}
  {v : BitVec n} {home f cnt d : RegField} {k : Word} {cc : BitVec 4} {rep : Bool} {space : IoSpace}

/-! ### Registers in common -/

theorem searchStep_common (h : separate [s.pointerFields f, [cnt], [home]] = false) :
    searchStep get v home k f cnt cc s = .error (.refused .registerOverlap) := by
  rw [searchStep, h]
  rfl

theorem compareStep_common (h : separate [s.pointerFields d, s.pointerFields f, [cnt]] = false) :
    compareStep get k f cnt d cc s = .error (.refused .registerOverlap) := by
  rw [compareStep, h]
  rfl

theorem moveStep_common (h : separate [s.pointerFields d, s.pointerFields f, [cnt]] = false) :
    moveStep rep get store k f cnt d s = .error (.refused .registerOverlap) := by
  rw [moveStep, h]
  rfl

theorem translateStep_common (h : separate [s.pointerFields d, s.pointerFields f, [cnt], [1#4]] = false) :
    translateStep rep k d cnt f s = .error (.refused .registerOverlap) := by
  rw [translateStep, translateRegs, h]
  rfl

theorem translateTestStep_common (h : separate [s.pointerFields d, s.pointerFields f, [cnt], [1#4]] = false) :
    translateTestStep k d cnt f s = .error (.refused .registerOverlap) := by
  rw [translateTestStep, translateRegs, h]
  rfl

theorem inputStep_common (h : separate [s.pointerFields d, [f], [cnt]] = false) :
    inputStep rep space store k f cnt d s = .error (.refused .registerOverlap) := by
  rw [inputStep, h]
  rfl

theorem outputStep_common (h : separate [s.pointerFields f, [d], [cnt]] = false) :
    outputStep space get k f cnt d s = .error (.refused .registerOverlap) := by
  rw [outputStep, h]
  rfl

/-! ### A repeat form that stores into its own words -/

theorem moveStep_own (apart : separate [s.pointerFields d, s.pointerFields f, [cnt]] = true)
    (h : s.sparesOwnWords (s.pointer d) (n / 8) = false) :
    moveStep true get store k f cnt d s = .error (.refused .repeatOverwritesItself) := by
  rw [moveStep, apart, h]
  rfl

theorem translateStep_own (apart : separate [s.pointerFields d, s.pointerFields f, [cnt], [1#4]] = true)
    (h : s.sparesOwnWords (s.pointer d) 1 = false) :
    translateStep true k d cnt f s = .error (.refused .repeatOverwritesItself) := by
  rw [translateStep, translateRegs, apart, h]
  rfl

theorem inputStep_own (apart : separate [s.pointerFields d, [f], [cnt]] = true)
    (h : s.sparesOwnWords (s.pointer d) (n / 8) = false) :
    inputStep true space store k f cnt d s = .error (.refused .repeatOverwritesItself) := by
  rw [inputStep, apart, h]
  rfl

/-! ### An odd pointer to words -/

theorem searchStep_odd {v : Word} (apart : separate [s.pointerFields f, [cnt], [home]] = true)
    (h : (s.pointer f).even = false) :
    searchStep getW v home k f cnt cc s = .error (.fault .oddWordAccess) := by
  rw [searchStep, apart, getW, readWord_odd h]
  rfl

theorem compareStep_odd (apart : separate [s.pointerFields d, s.pointerFields f, [cnt]] = true)
    (h : (s.pointer f).even = false ∨ (s.pointer d).even = false) :
    compareStep getW k f cnt d cc s = .error (.fault .oddWordAccess) := by
  rw [compareStep, apart, getW, getW]
  cases even : (s.pointer d).even with
  | false =>
    rw [readWord_odd even]
    rfl
  | true =>
    rw [readWord_even even, readWord_odd (h.resolve_right (by rw [even]; nofun))]
    rfl

theorem moveStep_odd (apart : separate [s.pointerFields d, s.pointerFields f, [cnt]] = true)
    (spares : (!rep || s.sparesOwnWords (s.pointer d) 2) = true)
    (h : (s.pointer f).even = false ∨ (s.pointer d).even = false) :
    moveStep rep getW storeW k f cnt d s = .error (.fault .oddWordAccess) := by
  have spares' : (!rep || s.sparesOwnWords (s.pointer d) (16 / 8)) = true := spares
  rw [moveStep, apart, spares', getW]
  cases even : (s.pointer f).even with
  | false =>
    rw [readWord_odd even]
    rfl
  | true =>
    show (s.readWord (s.pointer f) >>= fun v => s.writeWord (s.pointer d) v >>= _) = _
    rw [readWord_even even]
    show (s.writeWord (s.pointer d) _ >>= _) = _
    rw [writeWord_odd (h.resolve_left (by rw [even]; nofun))]
    rfl

theorem inputStep_odd (apart : separate [s.pointerFields d, [f], [cnt]] = true)
    (spares : (!rep || s.sparesOwnWords (s.pointer d) 2) = true) (h : (s.pointer d).even = false) :
    inputStep rep space storeW k f cnt d s = .error (.fault .oddWordAccess) := by
  have spares' : (!rep || s.sparesOwnWords (s.pointer d) (16 / 8)) = true := spares
  rw [inputStep, apart, spares']
  show (State.writeWord _ (s.pointer d) _ >>= _) = _
  rw [writeWord_odd h]
  rfl

theorem outputStep_odd (apart : separate [s.pointerFields f, [d], [cnt]] = true) (h : (s.pointer f).even = false) :
    outputStep space getW k f cnt d s = .error (.fault .oddWordAccess) := by
  rw [outputStep, apart, getW, readWord_odd h]
  rfl

end

/-- Settles O52. -/
theorem blockFormsStop : Obligations.BlockFormsStop := by
  intro s f cnt d cc stop common own odd moves searches ins outs
  have system := fun (sn : s.fcw.sn = true) i body => finish_privileged (s := s) sn i body
  simp only [stop, List.forall_mem_cons, List.not_mem_nil, false_implies, implies_true, and_true]
  refine ⟨fun h => ?_, fun h => ?_, fun apart h => ?_, fun h => ?_, fun apart h => ⟨?_, fun spares => ?_⟩,
    fun apart h => ?_, fun apart h _ _ => ?_, fun h => ?_, fun apart h => ?_, fun sn h => ?_,
    fun sn apart => ⟨fun h => ?_, fun h _ => ?_, fun h => ⟨?_, fun spares => ?_⟩⟩, fun sn h => ?_, fun sn apart h => ?_⟩
  · exact ⟨stops_once (searchStep_common h) rfl, stops_once (searchStep_common h) rfl,
      stops_repeated (searchStep_common h) rfl, stops_repeated (searchStep_common h) rfl⟩
  · exact ⟨stops_once (searchStep_common h) rfl, stops_once (searchStep_common h) rfl,
      stops_repeated (searchStep_common h) rfl, stops_repeated (searchStep_common h) rfl⟩
  · exact ⟨stops_once (searchStep_odd apart h) rfl, stops_once (searchStep_odd apart h) rfl,
      stops_repeated (searchStep_odd apart h) rfl, stops_repeated (searchStep_odd apart h) rfl⟩
  · exact ⟨stops_once (compareStep_common h) rfl, stops_once (compareStep_common h) rfl,
      stops_repeated (compareStep_common h) rfl, stops_repeated (compareStep_common h) rfl,
      stops_once (compareStep_common h) rfl, stops_once (compareStep_common h) rfl,
      stops_repeated (compareStep_common h) rfl, stops_repeated (compareStep_common h) rfl,
      stops_once (moveStep_common h) rfl, stops_once (moveStep_common h) rfl, stops_repeated (moveStep_common h) rfl,
      stops_repeated (moveStep_common h) rfl, stops_once (moveStep_common h) rfl, stops_once (moveStep_common h) rfl,
      stops_repeated (moveStep_common h) rfl, stops_repeated (moveStep_common h) rfl⟩
  · exact ⟨stops_once (compareStep_odd apart h) rfl, stops_once (compareStep_odd apart h) rfl,
      stops_repeated (compareStep_odd apart h) rfl, stops_repeated (compareStep_odd apart h) rfl,
      stops_once (moveStep_odd apart rfl h) rfl, stops_once (moveStep_odd apart rfl h) rfl⟩
  · and_intros <;> exact stops_repeated (moveStep_odd (rep := true) apart spares h) rfl
  · and_intros <;> exact stops_repeated (moveStep_own apart h) rfl
  · and_intros <;> exact stops_repeated (moveStep_own apart h) rfl
  · exact ⟨stops_once (translateStep_common h) rfl, stops_once (translateStep_common h) rfl,
      stops_repeated (translateStep_common h) rfl, stops_repeated (translateStep_common h) rfl,
      stops_once (translateTestStep_common h) rfl, stops_once (translateTestStep_common h) rfl,
      stops_repeated (translateTestStep_common h) rfl, stops_repeated (translateTestStep_common h) rfl⟩
  · and_intros <;> exact stops_repeated (translateStep_own apart h) rfl
  · exact ⟨stops_once (inputStep_common h) (system sn ..), stops_once (inputStep_common h) (system sn ..),
      stops_repeated (inputStep_common h) (system sn ..), stops_repeated (inputStep_common h) (system sn ..),
      stops_once (inputStep_common h) (system sn ..), stops_once (inputStep_common h) (system sn ..),
      stops_repeated (inputStep_common h) (system sn ..), stops_repeated (inputStep_common h) (system sn ..),
      stops_once (inputStep_common h) (system sn ..), stops_once (inputStep_common h) (system sn ..),
      stops_repeated (inputStep_common h) (system sn ..), stops_repeated (inputStep_common h) (system sn ..),
      stops_once (inputStep_common h) (system sn ..), stops_once (inputStep_common h) (system sn ..),
      stops_repeated (inputStep_common h) (system sn ..), stops_repeated (inputStep_common h) (system sn ..)⟩
  · and_intros <;> exact stops_repeated (inputStep_own apart h) (system sn ..)
  · and_intros <;> exact stops_repeated (inputStep_own apart h) (system sn ..)
  · and_intros <;> exact stops_once (inputStep_odd apart rfl h) (system sn ..)
  · and_intros <;> exact stops_repeated (inputStep_odd (rep := true) apart spares h) (system sn ..)
  · exact ⟨stops_once (outputStep_common h) (system sn ..), stops_once (outputStep_common h) (system sn ..),
      stops_repeated (outputStep_common h) (system sn ..), stops_repeated (outputStep_common h) (system sn ..),
      stops_once (outputStep_common h) (system sn ..), stops_once (outputStep_common h) (system sn ..),
      stops_repeated (outputStep_common h) (system sn ..), stops_repeated (outputStep_common h) (system sn ..),
      stops_once (outputStep_common h) (system sn ..), stops_once (outputStep_common h) (system sn ..),
      stops_repeated (outputStep_common h) (system sn ..), stops_repeated (outputStep_common h) (system sn ..),
      stops_once (outputStep_common h) (system sn ..), stops_once (outputStep_common h) (system sn ..),
      stops_repeated (outputStep_common h) (system sn ..), stops_repeated (outputStep_common h) (system sn ..)⟩
  · exact ⟨stops_once (outputStep_odd apart h) (system sn ..), stops_once (outputStep_odd apart h) (system sn ..),
      stops_repeated (outputStep_odd apart h) (system sn ..), stops_repeated (outputStep_odd apart h) (system sn ..),
      stops_once (outputStep_odd apart h) (system sn ..), stops_once (outputStep_odd apart h) (system sn ..),
      stops_repeated (outputStep_odd apart h) (system sn ..), stops_repeated (outputStep_odd apart h) (system sn ..)⟩

end Sys2Proof.Machine
end
